-- ==== Sys2Proof/Word.lean ====
section
/-! DEFINITION. Bytes and words, and the operand records that instructions and state share: a CAN frame (R32), an operating
mode (R30, R185) and the five header bytes of a transmit-buffer load (R77). -/

namespace Sys2Proof

/-- `u8` of rule R15: one byte of a bus command, of a response, of a chip register. -/
abbrev Byte := BitVec 8

/-- `u32` of rule R15: a frame identifier, an event counter. -/
abbrev Word32 := BitVec 32

/-- Rule R32: a CAN frame. `len` is a count, so that the ill-formed lengths rule R103 rejects can be offered; the frame's
well-formedness is `Machine.Frame.wellFormed`. -/
structure Frame where
  id   : Word32
  ext  : Bool
  rtr  : Bool
  len  : Nat
  data : Vector Byte 8
deriving DecidableEq, Repr

/-- Rule R30: the base operating modes of the chip. -/
inductive BaseMode where
  | normal
  | loopback
  | listenOnly
deriving DecidableEq, Repr

/-- Rule R30: an operating mode, "optionally combined with one-shot". -/
structure Mode where
  base    : BaseMode
  oneShot : Bool
deriving DecidableEq, Repr

/-- Rules R77 and R81: the header `h1..h5` of LOAD_TX_BUFFER, four identifier bytes and the length byte. -/
structure Header where
  h1 : Byte
  h2 : Byte
  h3 : Byte
  h4 : Byte
  h5 : Byte
deriving DecidableEq, Repr

/-- The header's bytes in bus order. -/
def Header.bytes (h : Header) : List Byte := [h.h1, h.h2, h.h3, h.h4, h.h5]

end Sys2Proof
end

