-- ==== Sys2Proof/Config.lean ====
section
/-! DEFINITION. What an implementation fixes: the parameters the spec leaves to the platform (rules R10 to R13, R182, R185) as
one record of plain data, the values they have after reset, and the open values, constants without a body. -/

namespace Sys2Proof

/-- Rules R10, R11, R12, R13, R182, R185: the parameters of the block, "configuration, not state: no stimulus changes them"
(R242). A machine state carries one such record, so that a statement about every state is a statement about every value of
the parameters. -/
structure Config where
  /-- R10: interrupt-flag bit positions in the chip's register 0x2C. -/
  rx0ifBit : Fin 8
  rx1ifBit : Fin 8
  tx0ifBit : Fin 8
  tx1ifBit : Fin 8
  tx2ifBit : Fin 8
  errifBit : Fin 8
  wakifBit : Fin 8
  merrfBit : Fin 8
  /-- R11: receive-overflow bit positions in the chip's register 0x2D. -/
  rx0ovrBit : Fin 8
  rx1ovrBit : Fin 8
  /-- R12: the three bit-timing bytes `CNF`. -/
  cnf0 : Byte
  cnf1 : Byte
  cnf2 : Byte
  /-- R12: the interrupt-enable register's address and the mask written there. -/
  inteAddr  : Byte
  inteValue : Byte
  /-- R12: the receive-buffer acceptance modes. -/
  rxb0ctrlValue : Byte
  rxb1ctrlValue : Byte
  /-- R185: `MODE_CODE`, one byte per mode. -/
  codeNormal            : Byte
  codeNormalOneShot     : Byte
  codeLoopback          : Byte
  codeLoopbackOneShot   : Byte
  codeListenOnly        : Byte
  codeListenOnlyOneShot : Byte
  /-- R185: `OPMODE_MASK`, the bits of register 0x0E that report the mode. -/
  opmodeMask : Byte
  /-- R182: the detection masks and expected values. -/
  detStatMask : Byte
  detStatExp  : Byte
  detCtrlMask : Byte
  detCtrlExp  : Byte
  /-- R13, R169: whether a standard frame's remote flag is sent in the length byte. -/
  txStdRtrInDlc : Bool
deriving DecidableEq, Repr

namespace Config

/-- Rule R13: the byte sent in positions where only the response matters. DESIGN CHOICE of the spec (its decision D3). -/
def fill : Byte := 0x00

/-- Rule R13: the transmit buffer the block uses, index 0. DESIGN CHOICE of the spec (its decision D10). -/
def txb : Nat := 0

/-- The bit-timing bytes of rule R12. The spec gives no value: open constants. -/
opaque openCnf : Nat → Byte

/-- The interrupt-enable mask of rule R12. The spec gives no value: an open constant. -/
opaque openInteValue : Byte

/-- The acceptance mode of receive buffer 0 (R12). The spec gives no value: an open constant. -/
opaque openRxb0ctrlValue : Byte

/-- The acceptance mode of receive buffer 1 (R12). The spec gives no value: an open constant. -/
opaque openRxb1ctrlValue : Byte

/-- Free value: what the chip register at an address holds after the reset numbered by the first argument, while nothing has
changed it since. Rule R38 leaves these values to the chip and gives none. -/
opaque registerAtReset : Nat → Byte → Byte

/-- Free value: the contents of the chip's transmit buffers after a chip reset; the spec gives none. -/
opaque txBufferAtReset : Nat → Fin 3 → List Byte

/-- Free value: the contents of the chip's receive buffers after a chip reset; the spec gives none. -/
opaque rxBufferAtReset : Nat → Fin 2 → Vector Byte 13

/-- Free value: the response bytes the spec gives no value (`resp[0]` of every command, `resp[1]` of a READ, the whole
response of the others: rules R73 to R79), by transaction number and byte index. -/
opaque idleByte : Nat → Nat → Byte

/-- Free value: which register, if any, byte number `k` of a sequential READ or WRITE reaches when the start address plus `k`
lies above 0xFF. Rule R60 does not say. -/
opaque targetPastTop : Byte → Nat → Option Byte

/-- Free value: what a transmit buffer holds after LOAD_TX_BUFFER while the buffer is pending transmission, by transaction
number and bytes offered. Rule R68 speaks only of a buffer that is not pending. -/
opaque loadWhilePending : Nat → List Byte → List Byte

/-- Free value: what the data part of a transmit buffer holds after LOAD_TX_BUFFER with more than 8 data bytes, by transaction
number and bytes offered. Rules R77 and R81 give a place to 8 only. -/
opaque overlongData : Nat → List Byte → List Byte

/-- The parameters after reset: the defaults of rules R10, R11, R12, R182 and R185 (marked general knowledge in the spec,
PRESUMED here), `TX_STD_RTR_IN_DLC = false` (R13), and open constants where the spec gives no default. -/
def initial : Config where
  rx0ifBit := 0
  rx1ifBit := 1
  tx0ifBit := 2
  tx1ifBit := 3
  tx2ifBit := 4
  errifBit := 5
  wakifBit := 6
  merrfBit := 7
  rx0ovrBit := 6
  rx1ovrBit := 7
  cnf0 := openCnf 0
  cnf1 := openCnf 1
  cnf2 := openCnf 2
  inteAddr := 0x2B
  inteValue := openInteValue
  rxb0ctrlValue := openRxb0ctrlValue
  rxb1ctrlValue := openRxb1ctrlValue
  codeNormal := 0x00
  codeNormalOneShot := 0x08
  codeLoopback := 0x40
  codeLoopbackOneShot := 0x48
  codeListenOnly := 0x60
  codeListenOnlyOneShot := 0x68
  opmodeMask := 0xE0
  detStatMask := 0xEE
  detStatExp := 0x80
  detCtrlMask := 0x17
  detCtrlExp := 0x07
  txStdRtrInDlc := false

end Config

end Sys2Proof
end

