-- ==== Sys2Proof/Syntax.lean ====
section
/-! DEFINITION. The instruction set: one constructor per row of spec/opcode_table.json, the 12 bus commands of rule R71 and
the 6 stimuli of rule R85 with the draws of rule R86. -/

namespace Sys2Proof

/-- The 18 rows of the opcode table. A bus command is an instruction to the chip, which the block emits or never emits (R72);
a stimulus is an instruction to the block. A stimulus carries the answers ("draws", R8, R17, R86) of the agents its step may
ask: `submit` is the transport's verdict on the command the step submits (true: accepted), `alloc` the sink's allocation
verdict (true: allocated), `timeout` the mode-poll timeout (true: elapsed). -/
inductive Instr where
  /-- R75: write `data` to the registers from `addr` on. -/
  | write (addr : Byte) (data : List Byte)
  /-- R74: read one register per clock byte, from `addr` on. -/
  | read (addr : Byte) (clock : List Byte)
  /-- R76: change the bits of `mask` at `addr` to those of `data`. -/
  | bitModify (addr mask data : Byte)
  /-- R77 with n = 0. -/
  | loadTxBuffer0 (header : Header) (data : List Byte)
  /-- R77 with n = 1 (R72: never emitted by the block). -/
  | loadTxBuffer1 (header : Header) (data : List Byte)
  /-- R77 with n = 2 (R72: never emitted by the block). -/
  | loadTxBuffer2 (header : Header) (data : List Byte)
  /-- R78 with n = 0. -/
  | requestToSend0
  /-- R78 with n = 1 (R72: never emitted by the block). -/
  | requestToSend1
  /-- R78 with n = 2 (R72: never emitted by the block). -/
  | requestToSend2
  /-- R79 with n = 0; `clock` are the 13 bytes that clock the response. -/
  | readRxBuffer0 (clock : List Byte)
  /-- R79 with n = 1. -/
  | readRxBuffer1 (clock : List Byte)
  /-- R73: reset the chip. -/
  | reset
  /-- R100: a falling edge of the chip's interrupt line. -/
  | notifyInterrupt (submit : Bool)
  /-- R103, R104: a request to transmit `frame`. -/
  | requestTransmit (frame : Frame) (submit : Bool)
  /-- R140: the outstanding command completes with response `resp`. -/
  | busComplete (resp : List Byte) (submit alloc timeout : Bool)
  /-- R180: the host asks for chip detection. -/
  | probe (submit : Bool)
  /-- R186: the host starts the controller in `mode`. -/
  | start (mode : Mode) (submit : Bool)
  /-- R195: the host stops the controller. -/
  | stop
deriving DecidableEq, Repr

end Sys2Proof
end

