-- ==== Sys2Proof/WellFormed.lean ====
section
/-! DEFINITION. Which terms of `Instr` are instructions of the spec's formats: operand counts and lengths. -/

namespace Sys2Proof

/-- Rules R77, R83: the data bytes number the low four bits of the length byte `h5`. A frame the block emits has at most 8
(R169); a command from elsewhere may say 9 to 15 (assumption 23). -/
def Header.fits (h : Header) (data : List Byte) : Bool := data.length == (h.h5 &&& 0x0F).toNat

/-- The operand checks of the formats: at least one data byte in WRITE and READ (R74, R75), `len` data bytes in LOAD_TX_BUFFER
(R77), 13 clock bytes in READ_RX_BUFFER (R79); a frame's length fits the byte that carries it in the model's stimulus message.
Whether a FRAME is well formed (R32) is no check here: the block itself answers an ill-formed one (R103). -/
def Instr.wellFormed : Instr → Bool
  | .write _ data => !data.isEmpty
  | .read _ clock => !clock.isEmpty
  | .bitModify _ _ _ => true
  | .loadTxBuffer0 h data => h.fits data
  | .loadTxBuffer1 h data => h.fits data
  | .loadTxBuffer2 h data => h.fits data
  | .requestToSend0 => true
  | .requestToSend1 => true
  | .requestToSend2 => true
  | .readRxBuffer0 clock => clock.length == 13
  | .readRxBuffer1 clock => clock.length == 13
  | .reset => true
  | .notifyInterrupt _ => true
  | .requestTransmit f _ => decide (f.len < 256)
  | .busComplete _ _ _ _ => true
  | .probe _ => true
  | .start _ _ => true
  | .stop => true

end Sys2Proof
end

