-- ==== Sys2Proof/Decode.lean ====
section
/-! DEFINITION. Messages (delimited byte strings on one of two channels), the decoder of both channels, the encoder, and the
reading of an opcode-table word.

The spec has two encodings: bus commands, which rule R71 gives bit-exactly, and stimuli, whose 4-bit codes rule R85 assigns.
The two number spaces overlap (0x2 is WRITE and RequestTransmit), so a message names its channel. The spec gives the operands
of a stimulus no bytes: their layout here is a DESIGN CHOICE (assumption 3). -/

namespace Sys2Proof

/-- Where a message goes: over the command bus to the chip, or to the block. -/
inductive Channel where
  | bus
  | stimulus
deriving DecidableEq, Repr

/-- One bus transaction's command bytes, or one stimulus: byte 0 first (R16, R55). The transport delimits it (R83). -/
structure Message where
  channel : Channel
  bytes   : List Byte
deriving DecidableEq, Repr

/-- Why a message denotes no instruction. -/
inductive DecodeError where
  /-- No byte at all: there is no opcode (R70). -/
  | emptyMessage
  /-- R84: byte 0 is no opcode of rule R71's table. -/
  | unknownOpcode (op : Byte)
  /-- R82, R83: the message has not the length of its format. -/
  | wrongLength (op : Byte)
  /-- R85: stimulus codes 0x0 and 0x7 to 0xF are reserved. -/
  | reservedStimulus (code : Byte)
  /-- An operand byte of a stimulus has a value the model's layout gives no meaning. -/
  | badOperand (code : Byte)
deriving DecidableEq, Repr

/-! ### The opcode bytes of rule R71 -/

def opWrite : Byte := 0x02
def opRead : Byte := 0x03
def opBitModify : Byte := 0x05
def opReset : Byte := 0xC0

/-- Rule R71: `LOAD_TX_BUFFER(n) = 0x40 + 2n`. -/
def opLoadTxBuffer (n : Nat) : Byte := BitVec.ofNat 8 (0x40 + 2 * n)

/-- Rule R71: `REQUEST_TO_SEND(n) = 0x80 + (1 << n)`. -/
def opRequestToSend (n : Nat) : Byte := BitVec.ofNat 8 (0x80 + 2 ^ n)

/-- Rule R71: `READ_RX_BUFFER(n) = 0x90 + 4n`. -/
def opReadRxBuffer (n : Nat) : Byte := BitVec.ofNat 8 (0x90 + 4 * n)

/-! ### The bus channel -/

/-- The instruction if it is well formed, else the length error of its opcode. -/
def checked (op : Byte) (i : Instr) : Except DecodeError Instr :=
  if i.wellFormed then .ok i else .error (.wrongLength op)

/-- LOAD_TX_BUFFER's operands (R77): five header bytes, then the data. -/
def decodeLoad (op : Byte) (make : Header → List Byte → Instr) : List Byte → Except DecodeError Instr
  | h1 :: h2 :: h3 :: h4 :: h5 :: data => checked op (make ⟨h1, h2, h3, h4, h5⟩ data)
  | _ => .error (.wrongLength op)

/-- READ's and WRITE's operands (R74, R75): an address, then at least one byte. -/
def decodeAddressed (op : Byte) (make : Byte → List Byte → Instr) : List Byte → Except DecodeError Instr
  | addr :: rest => checked op (make addr rest)
  | _ => .error (.wrongLength op)

/-- BIT_MODIFY's operands (R76). -/
def decodeBitModify : List Byte → Except DecodeError Instr
  | [addr, mask, data] => .ok (.bitModify addr mask data)
  | _ => .error (.wrongLength opBitModify)

/-- A command of its opcode alone (R73, R78). -/
def decodeBare (op : Byte) (i : Instr) : List Byte → Except DecodeError Instr
  | [] => .ok i
  | _ => .error (.wrongLength op)

/-- The opcode byte selects the format (R70, R71). -/
def decodeBusOp (op : Byte) (rest : List Byte) : Except DecodeError Instr :=
  if op = opWrite then decodeAddressed op .write rest
  else if op = opRead then decodeAddressed op .read rest
  else if op = opBitModify then decodeBitModify rest
  else if op = opLoadTxBuffer 0 then decodeLoad op .loadTxBuffer0 rest
  else if op = opLoadTxBuffer 1 then decodeLoad op .loadTxBuffer1 rest
  else if op = opLoadTxBuffer 2 then decodeLoad op .loadTxBuffer2 rest
  else if op = opRequestToSend 0 then decodeBare op .requestToSend0 rest
  else if op = opRequestToSend 1 then decodeBare op .requestToSend1 rest
  else if op = opRequestToSend 2 then decodeBare op .requestToSend2 rest
  else if op = opReadRxBuffer 0 then checked op (.readRxBuffer0 rest)
  else if op = opReadRxBuffer 1 then checked op (.readRxBuffer1 rest)
  else if op = opReset then decodeBare op .reset rest
  else .error (.unknownOpcode op)

/-- The instruction a bus transaction's command bytes stand for. -/
def decodeBus : List Byte → Except DecodeError Instr
  | [] => .error .emptyMessage
  | op :: rest => decodeBusOp op rest

/-- Rule R83: the length of a command as a decoder of a command stream tells it from the bytes so far. READ and WRITE carry no
length field ("the transport delimits" them), so for them, for an unknown opcode and for a LOAD_TX_BUFFER whose length byte
has not come, there is no answer. -/
def streamLength : List Byte → Option Nat
  | [] => none
  | op :: rest =>
    if op = opReset ∨ op = opRequestToSend 0 ∨ op = opRequestToSend 1 ∨ op = opRequestToSend 2 then some 1
    else if op = opReadRxBuffer 0 ∨ op = opReadRxBuffer 1 then some 14
    else if op = opBitModify then some 4
    else if op = opLoadTxBuffer 0 ∨ op = opLoadTxBuffer 1 ∨ op = opLoadTxBuffer 2 then
      match rest with
      | _ :: _ :: _ :: _ :: h5 :: _ => some (6 + (h5 &&& 0x0F).toNat)
      | _ => none
    else none

/-! ### The stimulus channel

Byte 0: the code of rule R85 in bits 3..0; bit 4 set when the transport refuses the step's command, bit 5 when the sink cannot
allocate, bit 6 when the mode poll times out (rule R86's defaults are the zeros); bit 7 zero. A draw bit of a stimulus without
that draw is zero. -/

/-- Rule R85: the stimulus codes. -/
def codeNotifyInterrupt : Byte := 0x1
def codeRequestTransmit : Byte := 0x2
def codeBusComplete : Byte := 0x3
def codeProbe : Byte := 0x4
def codeStart : Byte := 0x5
def codeStop : Byte := 0x6

/-- Byte 0 of a stimulus message. -/
def stimulusByte (code : Byte) (submit alloc timeout : Bool) : Byte :=
  code ||| (if submit then 0x00 else 0x10) ||| (if alloc then 0x00 else 0x20) ||| (if timeout then 0x40 else 0x00)

/-- A frame's 14 operand bytes: identifier, most significant byte first, the two flags, the length, the data. -/
def frameBytes (f : Frame) : List Byte :=
  [f.id.extractLsb' 24 8, f.id.extractLsb' 16 8, f.id.extractLsb' 8 8, f.id.extractLsb' 0 8,
    (if f.ext then 0x01 else 0x00) ||| (if f.rtr then 0x02 else 0x00), BitVec.ofNat 8 f.len] ++ f.data.toList

/-- The frame 14 operand bytes stand for; a set bit among bits 7..2 of the flag byte has no meaning. -/
def frameOfBytes : List Byte → Option Frame
  | [i3, i2, i1, i0, flags, len, d0, d1, d2, d3, d4, d5, d6, d7] =>
    if flags &&& 0xFC = 0 then
      some { id := i3 ++ i2 ++ i1 ++ i0, ext := flags.getLsbD 0, rtr := flags.getLsbD 1, len := len.toNat,
             data := #v[d0, d1, d2, d3, d4, d5, d6, d7] }
    else none
  | _ => none

/-- A mode's operand byte: the base mode in bits 1..0, one-shot in bit 2. -/
def modeByte (m : Mode) : Byte :=
  (match m.base with | .normal => 0x00 | .loopback => 0x01 | .listenOnly => 0x02) ||| (if m.oneShot then 0x04 else 0x00)

/-- The mode an operand byte stands for. -/
def modeOfByte (b : Byte) : Option Mode :=
  if b &&& 0xFB = 0x00 then some ⟨.normal, b.getLsbD 2⟩
  else if b &&& 0xFB = 0x01 then some ⟨.loopback, b.getLsbD 2⟩
  else if b &&& 0xFB = 0x02 then some ⟨.listenOnly, b.getLsbD 2⟩
  else none

/-- A stimulus without operand bytes. -/
def decodeBareStimulus (code : Byte) (i : Instr) : List Byte → Except DecodeError Instr
  | [] => .ok i
  | _ => .error (.wrongLength code)

/-- RequestTransmit's operand. -/
def decodeRequest (submit : Bool) (rest : List Byte) : Except DecodeError Instr :=
  match frameOfBytes rest with
  | some f => .ok (.requestTransmit f submit)
  | none => .error (.badOperand codeRequestTransmit)

/-- Start's operand. -/
def decodeStart (submit : Bool) : List Byte → Except DecodeError Instr
  | [b] =>
    match modeOfByte b with
    | some m => .ok (.start m submit)
    | none => .error (.badOperand codeStart)
  | _ => .error (.wrongLength codeStart)

/-- The code in bits 3..0 selects the stimulus (R85); bits of draws the stimulus does not have are refused. -/
def decodeStimulusByte (b : Byte) (rest : List Byte) : Except DecodeError Instr :=
  let code := b &&& 0x0F
  let submit := !b.getLsbD 4
  if code = codeNotifyInterrupt then
    if b &&& 0xE0 = 0 then decodeBareStimulus code (.notifyInterrupt submit) rest else .error (.badOperand code)
  else if code = codeRequestTransmit then
    if b &&& 0xE0 = 0 then decodeRequest submit rest else .error (.badOperand code)
  else if code = codeBusComplete then
    if b &&& 0x80 = 0 then .ok (.busComplete rest submit (!b.getLsbD 5) (b.getLsbD 6)) else .error (.badOperand code)
  else if code = codeProbe then
    if b &&& 0xE0 = 0 then decodeBareStimulus code (.probe submit) rest else .error (.badOperand code)
  else if code = codeStart then
    if b &&& 0xE0 = 0 then decodeStart submit rest else .error (.badOperand code)
  else if code = codeStop then
    if b &&& 0xF0 = 0 then decodeBareStimulus code .stop rest else .error (.badOperand code)
  else .error (.reservedStimulus code)

/-- The instruction a stimulus message's bytes stand for. -/
def decodeStimulus : List Byte → Except DecodeError Instr
  | [] => .error .emptyMessage
  | b :: rest => decodeStimulusByte b rest

/-! ### Both channels -/

/-- The instruction a message stands for. -/
def decode (m : Message) : Except DecodeError Instr :=
  match m.channel with
  | .bus => decodeBus m.bytes
  | .stimulus => decodeStimulus m.bytes

/-- The message of an instruction: rules R73 to R79 for the bus commands, the layout above for the stimuli. -/
def encode : Instr → Message
  | .write addr data => ⟨.bus, opWrite :: addr :: data⟩
  | .read addr clock => ⟨.bus, opRead :: addr :: clock⟩
  | .bitModify addr mask data => ⟨.bus, [opBitModify, addr, mask, data]⟩
  | .loadTxBuffer0 h data => ⟨.bus, opLoadTxBuffer 0 :: (h.bytes ++ data)⟩
  | .loadTxBuffer1 h data => ⟨.bus, opLoadTxBuffer 1 :: (h.bytes ++ data)⟩
  | .loadTxBuffer2 h data => ⟨.bus, opLoadTxBuffer 2 :: (h.bytes ++ data)⟩
  | .requestToSend0 => ⟨.bus, [opRequestToSend 0]⟩
  | .requestToSend1 => ⟨.bus, [opRequestToSend 1]⟩
  | .requestToSend2 => ⟨.bus, [opRequestToSend 2]⟩
  | .readRxBuffer0 clock => ⟨.bus, opReadRxBuffer 0 :: clock⟩
  | .readRxBuffer1 clock => ⟨.bus, opReadRxBuffer 1 :: clock⟩
  | .reset => ⟨.bus, [opReset]⟩
  | .notifyInterrupt submit => ⟨.stimulus, [stimulusByte codeNotifyInterrupt submit true false]⟩
  | .requestTransmit f submit => ⟨.stimulus, stimulusByte codeRequestTransmit submit true false :: frameBytes f⟩
  | .busComplete resp submit alloc timeout => ⟨.stimulus, stimulusByte codeBusComplete submit alloc timeout :: resp⟩
  | .probe submit => ⟨.stimulus, [stimulusByte codeProbe submit true false]⟩
  | .start mode submit => ⟨.stimulus, [stimulusByte codeStart submit true false, modeByte mode]⟩
  | .stop => ⟨.stimulus, [stimulusByte codeStop true true false]⟩

/-! ### Opcode-table words -/

/-- The shortest bus command with opcode `op` (R82, R83), if `op` is in rule R71's table. -/
def shortestBus (op : Byte) : Option Nat :=
  if op = opWrite ∨ op = opRead then some 3
  else if op = opLoadTxBuffer 0 ∨ op = opLoadTxBuffer 1 ∨ op = opLoadTxBuffer 2 then some 6
  else streamLength [op]

/-- The shortest message of a stimulus code in the model's layout; a completion carries at least one response byte, since
every command is at least one byte long. -/
def shortestStimulus (code : Byte) : Nat :=
  if code = codeRequestTransmit then 15
  else if code = codeBusComplete ∨ code = codeStart then 2
  else 1

/-- `bytes` lengthened with zero bytes to `n`. -/
def padTo (n : Nat) (bytes : List Byte) : List Byte := bytes ++ List.replicate (n - bytes.length) 0

/-- The bytes of a table word: byte 0 is bits 7..0, byte 1 bits 15..8, and so on. -/
def wordBytes (nbits w : Nat) : List Byte :=
  (List.range ((nbits + 7) / 8)).map fun k => BitVec.ofNat 8 (w >>> (8 * k))

/-- The message of a table word, its missing operand bytes zero. A row of 8 bits whose byte is an opcode of rule R71 is that
bus command; any other word, a row of 4 bits among them, is a stimulus (assumption 2). -/
def tableMessage (nbits w : Nat) : Message :=
  let bytes := wordBytes nbits w
  let op := bytes.headD 0
  match (if nbits ≤ 4 then none else shortestBus op) with
  | some n => ⟨.bus, padTo n bytes⟩
  | none => ⟨.stimulus, padTo (shortestStimulus (op &&& 0x0F)) bytes⟩

/-- The instruction the decoder reads from a word of the opcode table. -/
def decodeTableWord (nbits w : Nat) : Option Instr :=
  match decode (tableMessage nbits w) with
  | .ok i => some i
  | .error _ => none

end Sys2Proof
end

