-- ==== Sys2Proof/Machine/State.lean ====
section
/-! DEFINITION. The machine's state: the Controller Session of rule R20, the parameters (R12), the chip as far as the spec
gives it state (R38, R50, R60 to R63, R68), and the stimuli and transactions still to come; the reasons to stop; the state
after reset. -/

namespace Sys2Proof.Machine

/-- Rule R26: the steps of the startup sequencer, each with one command (R82). -/
inductive InitStep where
  | pReset
  | pReadId
  | sReset
  | sBitTiming
  | sIntEnable
  | sRxb0Ctrl
  | sRxb1Ctrl
  | sMode
  | sPollMode
deriving DecidableEq, Repr

/-- Rule R26: `ChainCmd`, the seven chain states with bus I/O. -/
inductive ChainCmd where
  | readFlags
  | readRxBuf0
  | readRxBuf1
  | clearStatusFlags
  | clearErrorFlags
  | loadTransmitBuffer
  | requestSend
deriving DecidableEq, Repr

/-- Rules R220, R221: the codes of the sticky fault state. -/
inductive FaultCode where
  /-- `F_LOAD_NO_FRAME`. -/
  | loadNoFrame
deriving DecidableEq, Repr

/-- Rule R26: the FSM state register, the block's program counter. -/
inductive Ctl where
  | unprobed
  | init (q : InitStep)
  | probeFailed
  | off
  | idle
  | wait (c : ChainCmd)
  | stalled (c : ChainCmd)
  | fault (code : FaultCode)
deriving DecidableEq, Repr

/-- Rule R31: the answers to a transmit request. -/
inductive TxReply where
  | accepted
  | rejectedSlotFull
  | rejectedNotRunning
  | rejectedInvalid
deriving DecidableEq, Repr

/-- Rule R31: the results reported to the host. -/
inductive InitReport where
  | probeOk
  | detectFail
  | startOk
  | modeTimeout
  | initBusError
deriving DecidableEq, Repr

/-- Rule R31: the output events. -/
inductive OutEvent where
  | busCmd (bytes : List Byte)
  | rxFrame (f : Frame)
  | rxDrop
  | txDone (f : Frame)
  | txReleased (f : Frame)
  | queueStop
  | queueResume
  | txReply (r : TxReply)
  | transceiverEnable
  | transceiverDisable
  | initResult (r : InitReport)
  /-- `Log(SubmitFail(c))`. -/
  | logSubmitFail (c : ChainCmd)
deriving DecidableEq, Repr

/-- The chip's registers that something has written or changed, by address; see `Memory.wf` for the form. An address not
listed has no value here: the register then holds its value after the last chip reset, which the spec does not give. -/
abbrev Memory := List Host.Cell

/-- The external chip as far as the spec gives it state: the register space (R50), the three transmit and two receive buffers
(R19, R71), the transmissions running (R63), the bytes of its last response (R55). -/
structure Chip where
  regs     : Memory
  /-- Per transmit buffer, the header and data bytes it holds (R77, R81). -/
  tx       : Vector (List Byte) 3
  /-- Per receive buffer, response bytes 1 to 13 of rule R80. -/
  rx       : Vector (Vector Byte 13) 2
  /-- The transmissions started by REQUEST_TO_SEND and not finished (R63, R68), oldest first, with the bytes sent. -/
  sending  : List (Fin 3 × List Byte)
  /-- The response bytes of the chip's last transaction (R55). -/
  response : List Byte
  /-- The MODEL's own: which chip reset the unlisted registers hold their values from; it numbers free values. -/
  epoch    : Nat
  /-- The MODEL's own: the transactions performed so far; it numbers free values. -/
  performed : Nat
deriving DecidableEq, Repr

/-- What the chip does of itself, between commands. The chip's internal behaviour is out of scope (R6) and its answers are
draws (R8), so any of these may come at any time. -/
inductive ChipEvent where
  /-- The chip changes one of its registers (R67: "the chip may set more flags"). -/
  | registerChanged (addr value : Byte)
  /-- A frame arrives in receive buffer n, laid out as bytes 1 to 13 of rule R80, and raises the buffer's flag (R39). -/
  | frameReceived (n : Fin 2) (bytes : Vector Byte 13)
  /-- Rule R63: the frame of transmit buffer n is sent, and the buffer's flag is set. -/
  | frameSent (n : Fin 3)
deriving DecidableEq, Repr

/-- What comes next: a message to the block or the chip, or an event of the chip's own. -/
inductive Input where
  | message (m : Message)
  | chipEvent (e : ChipEvent)
deriving DecidableEq, Repr

/-- Rule R20's Controller Session, field for field, and beside it the parameters, the chip and the inputs to come. -/
structure State where
  /-- R21. -/
  busy : Bool
  /-- R22. -/
  interruptPending : Bool
  /-- R23. -/
  transmitPending : Bool
  /-- R24: the frame slot. -/
  outgoingFrame : Option Frame
  /-- R25, R39: the snapshot of register 0x2C. -/
  statusBits : Byte
  /-- R25, R41: the snapshot of register 0x2D. -/
  errorFlags : Byte
  /-- R27. -/
  overflowCount : Word32
  /-- R28. -/
  rxDropCount : Word32
  /-- R26. -/
  ctl : Ctl
  /-- R29: the command submitted and not completed. -/
  outstanding : Option (List Byte)
  /-- R30. -/
  mode : Mode
  /-- R31: the output trace, oldest first. -/
  out : List OutEvent
  /-- R12, R242: the parameters. -/
  cfg : Config
  /-- The chip the block drives (R2). -/
  chip : Chip
  /-- The MODEL's own: the inputs to come, next first; `step` takes the first. -/
  inbox : List Input
deriving DecidableEq, Repr

/-- The chip after the reset numbered `epoch`: what the spec gives no value is an open constant, no transmission runs. -/
def Chip.afterReset (epoch performed : Nat) (response : List Byte) : Chip where
  regs := []
  tx := #v[Config.txBufferAtReset epoch 0, Config.txBufferAtReset epoch 1, Config.txBufferAtReset epoch 2]
  rx := #v[Config.rxBufferAtReset epoch 0, Config.rxBufferAtReset epoch 1]
  sending := []
  response := response
  epoch := epoch
  performed := performed

/-- Rules R40 and R240: the session at power-on. The chip is at its power-on reset and nothing is to come. -/
def State.reset : State where
  busy := false
  interruptPending := false
  transmitPending := false
  outgoingFrame := none
  statusBits := 0x00
  errorFlags := 0x00
  overflowCount := 0
  rxDropCount := 0
  ctl := .unprobed
  outstanding := none
  mode := ⟨.normal, false⟩
  out := []
  cfg := Config.initial
  chip := Chip.afterReset 0 0 []
  inbox := []

/-- Why the machine stops: the spec's "stuck" cases (R222), where a stimulus has no step. -/
inductive Fault where
  /-- R56, R141: a completion with no command outstanding. Raised by BusComplete. Safe: no claim is proved of the run beyond
  it, and the spec gives the stimulus no step there. -/
  | completionNotExpected
  /-- R56: a completion whose response has not the command's length. Raised by BusComplete. Safe, for the same reason. -/
  | completionWrongLength
  /-- R196: Stop in `Wait(_)` or `Init(_)`. Raised by Stop. Safe, for the same reason. -/
  | stopWhileOutstanding
deriving DecidableEq, Repr

/-- Why an input has no meaning. -/
inductive Refusal where
  /-- An instruction without a meaning in the model, by its mnemonic. Raised by no arm of `exec`. Safe. -/
  | notModelled (mnemonic : String)
  /-- R84, R85, R223: a message that is no instruction. Raised by `step`. Safe: the spec says "no stimulus and no step". -/
  | undecodable (e : DecodeError)
deriving DecidableEq, Repr

/-- The outcome of an instruction or a step of this machine. -/
abbrev Outcome := Host.Outcome State Fault Refusal

end Sys2Proof.Machine
end

