-- ==== Sys2Proof/Machine/Flags.lean ====
section
/-! DEFINITION. Flag computations: the masks of the configured bit positions and every test the chain makes on the snapshot. -/

namespace Sys2Proof.Machine

/-- `1 << b` on a byte. -/
def bitMask (b : Fin 8) : Byte := BitVec.ofNat 8 (2 ^ b.val)

/-- Rule R39: `RX0`. -/
def rx0Mask (c : Config) : Byte := bitMask c.rx0ifBit
/-- Rule R39: `RX1`. -/
def rx1Mask (c : Config) : Byte := bitMask c.rx1ifBit
/-- Rule R39: `TX0`. -/
def tx0Mask (c : Config) : Byte := bitMask c.tx0ifBit
/-- Rule R11: `OVR_MASK`. -/
def ovrMask (c : Config) : Byte := bitMask c.rx0ovrBit ||| bitMask c.rx1ovrBit

/-- The flag of receive buffer n in register 0x2C (R39). -/
def rxFlagMask (c : Config) (n : Fin 2) : Byte := if n = 0 then rx0Mask c else rx1Mask c

/-- The flag of transmit buffer n in register 0x2C (R39). -/
def txFlagMask (c : Config) (n : Fin 3) : Byte :=
  if n = 0 then tx0Mask c else if n = 1 then bitMask c.tx1ifBit else bitMask c.tx2ifBit

/-- `v & m != 0`. -/
def anySet (v m : Byte) : Bool := v &&& m != 0

namespace State

/-- Rule R122: `statusBits & RX0 != 0`. -/
def rx0Flag (s : State) : Bool := anySet s.statusBits (rx0Mask s.cfg)
/-- Rules R122, R125: `statusBits & RX1 != 0`. -/
def rx1Flag (s : State) : Bool := anySet s.statusBits (rx1Mask s.cfg)
/-- Rule R133: `statusBits & TX0 != 0`. -/
def tx0Flag (s : State) : Bool := anySet s.statusBits (tx0Mask s.cfg)
/-- Rule R122: `statusBits != 0`. -/
def anyStatus (s : State) : Bool := s.statusBits != 0
/-- Rule R133: `errorFlags != 0`. -/
def anyError (s : State) : Bool := s.errorFlags != 0
/-- Rule R41: `errorFlags & OVR_MASK != 0`, either overflow bit. -/
def overflow (s : State) : Bool := anySet s.errorFlags (ovrMask s.cfg)

end State

end Sys2Proof.Machine
end

