-- ==== Sys2Proof/Machine/Operands.lean ====
section
/-! DEFINITION. Operands: the register addresses, the bytes of a response, a frame's well-formedness, the mode's code and the
tests of the startup sequencer, the lifecycle classes of `ctl`, and who receives an output. -/

namespace Sys2Proof

/-- Rule R32: a frame is well formed. -/
def Frame.wellFormed (f : Frame) : Bool :=
  decide (f.len ≤ 8)
    && decide (f.id.toNat < if f.ext then 2 ^ 29 else 2 ^ 11)
    && (f.data.toList.drop f.len).all (· == 0)
    && (!f.rtr || f.data.toList.all (· == 0))

namespace Machine

/-! ### Register addresses (R9, R38) -/

def addrStatusMode : Byte := 0x0E
def addrControl : Byte := 0x0F
def addrBitTiming : Byte := 0x28
def addrInterruptFlag : Byte := 0x2C
def addrErrorFlag : Byte := 0x2D
def addrRxb0Ctrl : Byte := 0x60
def addrRxb1Ctrl : Byte := 0x70

/-- Rule R16: `resp[i]`. Where a completion is legal the response has every byte its rule reads (R56). -/
def respByte (resp : List Byte) (i : Nat) : Byte := resp.getD i 0

/-- Rule R185: `MODE_CODE(mode)`. -/
def modeCode (c : Config) (m : Mode) : Byte :=
  match m.base, m.oneShot with
  | .normal, false => c.codeNormal
  | .normal, true => c.codeNormalOneShot
  | .loopback, false => c.codeLoopback
  | .loopback, true => c.codeLoopbackOneShot
  | .listenOnly, false => c.codeListenOnly
  | .listenOnly, true => c.codeListenOnlyOneShot

/-- Rule R182: the chip is detected, from the bytes of 0x0E and 0x0F. -/
def detected (c : Config) (stat ctrl : Byte) : Bool :=
  stat &&& c.detStatMask == c.detStatExp && ctrl &&& c.detCtrlMask == c.detCtrlExp

/-- Rule R185: the mode is entered, from the byte of 0x0E. -/
def modeEntered (c : Config) (m : Mode) (stat : Byte) : Bool :=
  stat &&& c.opmodeMask == modeCode c m &&& c.opmodeMask

namespace Ctl

/-- "Running": `Idle`, `Wait(_)` or `Stalled(_)` (40_gate.md, R36). -/
def running : Ctl → Bool
  | .idle => true
  | .wait _ => true
  | .stalled _ => true
  | _ => false

/-- The states of rule R26 with a command outstanding: `Init(_)` and `Wait(_)`. -/
def awaiting : Ctl → Bool
  | .init _ => true
  | .wait _ => true
  | _ => false

end Ctl

/-- Rule R181: the probe steps, as opposed to the start steps. -/
def InitStep.isProbe : InitStep → Bool
  | .pReset => true
  | .pReadId => true
  | _ => false

/-- Rule R7: the agents beside BLOCK that receive an output. -/
inductive Agent where
  | bus
  | sink
  | txq
  | host
deriving DecidableEq, Repr

/-- Rule R31: the receiving agent of an output event. -/
def OutEvent.receiver : OutEvent → Agent
  | .busCmd _ => .bus
  | .rxFrame _ => .sink
  | .rxDrop => .sink
  | .txDone _ => .txq
  | .txReleased _ => .txq
  | .queueStop => .txq
  | .queueResume => .txq
  | .txReply _ => .txq
  | .transceiverEnable => .host
  | .transceiverDisable => .host
  | .initResult _ => .host
  | .logSubmitFail _ => .host

end Machine

end Sys2Proof
end

