-- ==== Sys2Proof/Machine/Codec.lean ====
section
/-! DEFINITION. The frame codec of 42_codec.md: `decodeRx`, `encodeTx` and the header computations, pure and total (R172). -/

namespace Sys2Proof.Machine

/-- Rule R160: the format discriminator, byte 2 bit 3. -/
def rxExtended (b2 : Byte) : Bool := b2.getLsbD 3

/-- Rule R161: the extended identifier. -/
def rxExtendedId (b1 b2 b3 b4 : Byte) : Word32 :=
  (b1.zeroExtend 32 <<< 21) ||| ((b2 &&& 0xE0).zeroExtend 32 <<< 13) ||| ((b2 &&& 0x03).zeroExtend 32 <<< 16)
    ||| (b3.zeroExtend 32 <<< 8) ||| b4.zeroExtend 32

/-- Rule R162: the standard identifier. -/
def rxStandardId (b1 b2 : Byte) : Word32 := (b1.zeroExtend 32 <<< 3) ||| (b2.zeroExtend 32 >>> 5)

/-- Rule R163: the remote flag, byte 5 bit 6 of an extended frame and byte 2 bit 4 of a standard one. -/
def rxRemote (b2 b5 : Byte) : Bool := if rxExtended b2 then b5.getLsbD 6 else b2.getLsbD 4

/-- Rule R164: the length, the low four bits of byte 5 clamped to 8. -/
def rxLength (b5 : Byte) : Nat := min (b5 &&& 0x0F).toNat 8

/-- Rule R164: data byte i of the decoded frame. -/
def rxDataByte (resp : List Byte) (i : Nat) : Byte :=
  if rxRemote (respByte resp 2) (respByte resp 5) then 0
  else if i < rxLength (respByte resp 5) then respByte resp (6 + i)
  else 0

/-- Rule R165: the frame a 14-byte receive-buffer response stands for. -/
def decodeRx (resp : List Byte) : Frame where
  id :=
    if rxExtended (respByte resp 2) then
      rxExtendedId (respByte resp 1) (respByte resp 2) (respByte resp 3) (respByte resp 4)
    else rxStandardId (respByte resp 1) (respByte resp 2)
  ext := rxExtended (respByte resp 2)
  rtr := rxRemote (respByte resp 2) (respByte resp 5)
  len := rxLength (respByte resp 5)
  data := #v[rxDataByte resp 0, rxDataByte resp 1, rxDataByte resp 2, rxDataByte resp 3,
             rxDataByte resp 4, rxDataByte resp 5, rxDataByte resp 6, rxDataByte resp 7]

/-- `v & 0xFF` of rules R167 and R168. -/
def lowByte (v : Word32) : Byte := v.truncate 8

/-- Rules R167 to R169: the header of a frame, by the parameter `TX_STD_RTR_IN_DLC`. -/
def txHeader (stdRtrInDlc : Bool) (f : Frame) : Header :=
  if f.ext then
    { h1 := lowByte (f.id >>> 21)
      h2 := (lowByte ((f.id >>> 18) &&& 0x07) <<< 5) ||| 0x08 ||| lowByte ((f.id >>> 16) &&& 0x03)
      h3 := lowByte (f.id >>> 8)
      h4 := lowByte f.id
      h5 := BitVec.ofNat 8 f.len ||| (if f.rtr then 0x40 else 0x00) }
  else
    { h1 := lowByte (f.id >>> 3)
      h2 := (lowByte (f.id &&& 0x07) <<< 5) ||| (if f.rtr && !stdRtrInDlc then 0x10 else 0x00)
      h3 := 0x00
      h4 := 0x00
      h5 := BitVec.ofNat 8 f.len ||| (if f.rtr && stdRtrInDlc then 0x40 else 0x00) }

/-- Rule R170: the LOAD_TX_BUFFER command of a frame. -/
def encodeTx (stdRtrInDlc : Bool) (f : Frame) : List Byte :=
  opLoadTxBuffer Config.txb :: ((txHeader stdRtrInDlc f).bytes ++ f.data.toList.take f.len)

/-- Rule R171: the receive-buffer response with the bytes of a LOAD_TX_BUFFER command, padded to 14. -/
def rxOf (cmd : List Byte) : List Byte := padTo 14 (0x90 :: cmd.tail)

end Sys2Proof.Machine
end

