-- ==== Sys2Proof/Machine/Ops.lean ====
section
/-! DEFINITION. The shared operations: the register memory, the chip's side of a bus transaction, the output trace, issuing a
command, the quiescent point, raising the fault, delivering a frame, and taking the next input. -/

namespace Sys2Proof.Machine

/-! ### The register memory (R50) -/

namespace Memory

/-- The canonical form: addresses strictly rising and inside the 8-bit space. An unlisted address has no value, so every listed
cell differs from it. -/
def wf : Memory → Bool
  | [] => true
  | [(a, _)] => decide (a < 256)
  | (a, _) :: (b, v) :: rest => decide (a < b) && wf ((b, v) :: rest)

/-- The value listed for an address; none where nothing has written or changed it since the chip's last reset. -/
def read (m : Memory) (a : Nat) : Option Byte :=
  match m with
  | [] => none
  | (b, v) :: rest => if a = b then some v else read rest a

/-- List `v` at `a`, in place. -/
def write (m : Memory) (a : Nat) (v : Byte) : Memory :=
  match m with
  | [] => [(a, v)]
  | (b, w) :: rest =>
    if a < b then (a, v) :: (b, w) :: rest
    else if a = b then (a, v) :: rest
    else (b, w) :: write rest a v

end Memory

/-! ### The chip -/

namespace Chip

/-- The register at `a`: the listed value, else the open value of the chip's last reset (R38). -/
def reg (c : Chip) (a : Byte) : Byte := (c.regs.read a.toNat).getD (Config.registerAtReset c.epoch a)

/-- Change the register at `a`. -/
def setReg (c : Chip) (a v : Byte) : Chip := { c with regs := c.regs.write a.toNat v }

/-- Set the bits of `m` at `a`. -/
def setBits (c : Chip) (a m : Byte) : Chip := c.setReg a (c.reg a ||| m)

/-- Clear the bits of `m` at `a`. -/
def clearBits (c : Chip) (a m : Byte) : Chip := c.setReg a (c.reg a &&& ~~~m)

/-- `(old & ~m) | (new & m)` of rule R61. -/
def merge (old new m : Byte) : Byte := (old &&& ~~~m) ||| (new &&& m)

/-- A command's write of one register. Rule R134: of the error-flag register, software can change the two overflow bits only
(the spec's general knowledge, PRESUMED). -/
def softwareWrite (cfg : Config) (c : Chip) (a v : Byte) : Chip :=
  if a = addrErrorFlag then c.setReg a (merge (c.reg a) v (ovrMask cfg)) else c.setReg a v

/-- Rule R60: the register that byte `k` of a sequential READ or WRITE from `a` reaches; past 0xFF the rule does not say. -/
def target (a : Byte) (k : Nat) : Option Byte :=
  if a.toNat + k < 256 then some (BitVec.ofNat 8 (a.toNat + k)) else Config.targetPastTop a k

/-- Rule R75: write `d0` to `a`, `d1` to `a + 1`, and so on; `k` is the number of the first byte. -/
def writeFrom (cfg : Config) (c : Chip) (a : Byte) (k : Nat) : List Byte → Chip
  | [] => c
  | d :: rest =>
    writeFrom cfg (match target a k with | some b => softwareWrite cfg c b d | none => c) a (k + 1) rest

/-- The response byte the spec gives no value (assumption 7), byte `k` of the transaction in progress. -/
def idle (c : Chip) (k : Nat) : Byte := Config.idleByte c.performed k

/-- `n` such bytes. -/
def idleBytes (c : Chip) (n : Nat) : List Byte := (List.range n).map c.idle

/-- Rules R60, R74: response byte `k + 2` of a READ, the register that data byte `k` reaches. -/
def readByte (c : Chip) (a : Byte) (k : Nat) : Byte :=
  match target a k with
  | some b => c.reg b
  | none => c.idle (k + 2)

/-- Rule R74: the response of a READ of `n` registers from `a`. -/
def readResponse (c : Chip) (a : Byte) (n : Nat) : List Byte :=
  c.idle 0 :: c.idle 1 :: (List.range n).map (c.readByte a)

/-- The transaction ends with the given response (R56: one byte per command byte). -/
def respond (c : Chip) (response : List Byte) : Chip :=
  { c with response := response, performed := c.performed + 1 }

/-- A transaction of `n` bytes whose response the spec leaves open ends. -/
def respondIdle (c : Chip) (n : Nat) : Chip := c.respond (c.idleBytes n)

/-- Whether transmit buffer `n` is pending transmission (R68). -/
def pending (c : Chip) (n : Fin 3) : Bool := c.sending.any fun job => job.1 == n

/-- Rules R77, R81: the data a load leaves in a buffer, open where more than 8 bytes are offered (assumption 23). -/
def loadedData (c : Chip) (data : List Byte) : List Byte :=
  if data.length ≤ 8 then data else Config.overlongData c.performed data

/-- Rule R77: load the header and data bytes into transmit buffer `n`; while it is pending transmission, what it then holds is
open (R68). -/
def load (c : Chip) (n : Fin 3) (h : Header) (data : List Byte) : Chip :=
  { c with tx := c.tx.set n (if c.pending n then Config.loadWhilePending c.performed (h.bytes ++ data)
                             else h.bytes ++ c.loadedData data) }

/-- Rules R63, R68: each request starts a transmission of what the buffer holds. -/
def request (c : Chip) (n : Fin 3) : Chip := { c with sending := c.sending ++ [(n, c.tx[n])] }

/-- Rule R62: clear the flag of receive buffer `n`. -/
def ackRx (cfg : Config) (c : Chip) (n : Fin 2) : Chip := c.clearBits addrInterruptFlag (rxFlagMask cfg n)

/-- Rule R79: the response of READ_RX_BUFFER(n), the layout of rule R80. -/
def rxResponse (c : Chip) (n : Fin 2) : List Byte := c.idle 0 :: c.rx[n].toList

/-- The oldest transmission of buffer `n` is over. -/
def finish (n : Fin 3) : List (Fin 3 × List Byte) → List (Fin 3 × List Byte)
  | [] => []
  | job :: rest => if job.1 = n then rest else job :: finish n rest

/-- An event of the chip's own. -/
def event (cfg : Config) (c : Chip) : ChipEvent → Chip
  | .registerChanged a v => c.setReg a v
  | .frameReceived n bytes => ({ c with rx := c.rx.set n bytes }).setBits addrInterruptFlag (rxFlagMask cfg n)
  | .frameSent n =>
    ({ c with sending := finish n c.sending }).setBits addrInterruptFlag (txFlagMask cfg n)

end Chip

/-- A bus command's effect on the machine: the chip's, and no other (R241: the block is not touched by the command itself). -/
def State.onChip (f : Chip → Chip) (s : State) : State := { s with chip := f s.chip }

/-! ### Outputs -/

/-- Rule R17: `emit e`. -/
def emit (e : OutEvent) (s : State) : State := { s with out := s.out ++ [e] }

/-! ### The block's exception: the sticky fault (R220)

The block has no trap mechanism: no vector, no saved program counter, no handler, no return. Raising the fault is the one
operation of the kind; no step leaves the fault state. -/

/-- Rule R220: `raise Fault(code)`; it emits nothing. -/
def raiseFault (code : FaultCode) (s : State) : State := { s with ctl := .fault code, outstanding := none }

/-! ### Chain commands -/

/-- Rule R109: the command bytes of a chain state; none for LoadTransmitBuffer with an empty slot. -/
def command (c : ChainCmd) (s : State) : Option (List Byte) :=
  match c with
  | .readFlags => some [opRead, addrInterruptFlag, Config.fill, Config.fill]
  | .readRxBuf0 => some (opReadRxBuffer 0 :: List.replicate 13 Config.fill)
  | .readRxBuf1 => some (opReadRxBuffer 1 :: List.replicate 13 Config.fill)
  | .clearStatusFlags => some [opBitModify, addrInterruptFlag, s.statusBits, 0x00]
  | .clearErrorFlags => some [opBitModify, addrErrorFlag, s.errorFlags, 0x00]
  | .loadTransmitBuffer => s.outgoingFrame.map (encodeTx s.cfg.txStdRtrInDlc)
  | .requestSend => some [opRequestToSend Config.txb]

/-- Rule R108: emit the command and take the transport's verdict `ok`. -/
def submit (c : ChainCmd) (cmd : List Byte) (ok : Bool) (s : State) : State :=
  if ok then { emit (.busCmd cmd) s with outstanding := some cmd, ctl := .wait c }
  else emit (.logSubmitFail c) { emit (.busCmd cmd) s with outstanding := none, ctl := .stalled c }

/-- Rule R108: `issue(c)`. -/
def issue (c : ChainCmd) (ok : Bool) (s : State) : State :=
  match command c s with
  | some cmd => submit c cmd ok s
  | none => raiseFault .loadNoFrame s

/-- Rule R106: `atQuiescentPoint()`, the chain's return when nothing is pending (R228). -/
def atQuiescentPoint (ok : Bool) (s : State) : State :=
  if s.transmitPending then issue .loadTransmitBuffer ok { s with transmitPending := false }
  else if s.interruptPending then issue .readFlags ok { s with interruptPending := false }
  else { s with busy := false, ctl := .idle, outstanding := none }

/-- Rule R107: the pseudo-state TransmitOrReadFlags. -/
def transmitOrReadFlags (ok : Bool) (s : State) : State :=
  if s.transmitPending && s.outgoingFrame.isSome then issue .loadTransmitBuffer ok { s with transmitPending := false }
  else issue .readFlags ok s

/-- Rule R166: `deliver(f)` with the sink's allocation verdict. -/
def deliver (allocOk : Bool) (f : Frame) (s : State) : State :=
  if allocOk then emit (.rxFrame f) s else emit .rxDrop { s with rxDropCount := s.rxDropCount + 1 }

/-! ### Startup commands -/

/-- Rules R180, R183, R186 to R191: the command bytes of a startup step. -/
def initCommand (q : InitStep) (s : State) : List Byte :=
  match q with
  | .pReset => [opReset]
  | .pReadId => [opRead, addrStatusMode, Config.fill, Config.fill]
  | .sReset => [opReset]
  | .sBitTiming => [opWrite, addrBitTiming, s.cfg.cnf0, s.cfg.cnf1, s.cfg.cnf2]
  | .sIntEnable => [opWrite, s.cfg.inteAddr, s.cfg.inteValue]
  | .sRxb0Ctrl => [opWrite, addrRxb0Ctrl, s.cfg.rxb0ctrlValue]
  | .sRxb1Ctrl => [opWrite, addrRxb1Ctrl, s.cfg.rxb1ctrlValue]
  | .sMode => [opWrite, addrControl, modeCode s.cfg s.mode]
  | .sPollMode => [opRead, addrStatusMode, Config.fill]

/-- Rule R181: the transport refused a startup command. -/
def initRefused (q : InitStep) (s : State) : State :=
  if q.isProbe then { emit (.initResult .initBusError) s with outstanding := none, ctl := .probeFailed }
  else { emit (.initResult .initBusError) (emit .transceiverDisable s) with outstanding := none, ctl := .off }

/-- Rule R181: `issueInit(q, cmd)` with the transport's verdict. -/
def issueInit (q : InitStep) (ok : Bool) (s : State) : State :=
  if ok then
    { emit (.busCmd (initCommand q s)) s with outstanding := some (initCommand q s), ctl := .init q }
  else initRefused q (emit (.busCmd (initCommand q s)) s)

/-! ### Taking the next input -/

/-- The first input of the inbox and the state without it. -/
def nextInput (s : State) : Option (Input × State) :=
  match s.inbox with
  | [] => none
  | i :: rest => some (i, { s with inbox := rest })

/-- The state with a message placed as the next input. -/
def placeMessage (m : Message) (s : State) : State := { s with inbox := .message m :: s.inbox }

end Sys2Proof.Machine
end

