-- ==== Sys2Proof/Machine/Bus.lean ====
section
/-! DEFINITION. The 12 bus commands: what the chip does when it performs one (R60 to R63, R68, R73 to R79). The block's
session takes no part: it sees a command's response at the BusComplete stimulus, whose bytes are a draw (R8). -/

namespace Sys2Proof.Machine

/-- Rules R60, R75: WRITE. -/
def execWrite (addr : Byte) (data : List Byte) (s : State) : Outcome :=
  .next (s.onChip fun c => (c.writeFrom s.cfg addr 0 data).respondIdle (data.length + 2))

/-- Rules R60, R74: READ. -/
def execRead (addr : Byte) (clock : List Byte) (s : State) : Outcome :=
  .next (s.onChip fun c => c.respond (c.readResponse addr clock.length))

/-- Rules R61, R76, R134: BIT_MODIFY. -/
def execBitModify (addr mask data : Byte) (s : State) : Outcome :=
  .next (s.onChip fun c => (c.softwareWrite s.cfg addr (Chip.merge (c.reg addr) data mask)).respondIdle 4)

/-- Rule R77: LOAD_TX_BUFFER(0). -/
def execLoadTxBuffer0 (header : Header) (data : List Byte) (s : State) : Outcome :=
  .next (s.onChip fun c => (c.load 0 header data).respondIdle (6 + data.length))

/-- Rules R72, R77: LOAD_TX_BUFFER(1). -/
def execLoadTxBuffer1 (header : Header) (data : List Byte) (s : State) : Outcome :=
  .next (s.onChip fun c => (c.load 1 header data).respondIdle (6 + data.length))

/-- Rules R72, R77: LOAD_TX_BUFFER(2). -/
def execLoadTxBuffer2 (header : Header) (data : List Byte) (s : State) : Outcome :=
  .next (s.onChip fun c => (c.load 2 header data).respondIdle (6 + data.length))

/-- Rules R63, R68, R78: REQUEST_TO_SEND(0). -/
def execRequestToSend0 (s : State) : Outcome := .next (s.onChip fun c => (c.request 0).respondIdle 1)

/-- Rules R63, R68, R72, R78: REQUEST_TO_SEND(1). -/
def execRequestToSend1 (s : State) : Outcome := .next (s.onChip fun c => (c.request 1).respondIdle 1)

/-- Rules R63, R68, R72, R78: REQUEST_TO_SEND(2). -/
def execRequestToSend2 (s : State) : Outcome := .next (s.onChip fun c => (c.request 2).respondIdle 1)

/-- Rules R62, R79: READ_RX_BUFFER(0). -/
def execReadRxBuffer0 (_clock : List Byte) (s : State) : Outcome :=
  .next (s.onChip fun c => (c.ackRx s.cfg 0).respond (c.rxResponse 0))

/-- Rules R62, R79: READ_RX_BUFFER(1). -/
def execReadRxBuffer1 (_clock : List Byte) (s : State) : Outcome :=
  .next (s.onChip fun c => (c.ackRx s.cfg 1).respond (c.rxResponse 1))

/-- Rules R68, R73, R241: RESET resets the chip and not the block. -/
def execReset (s : State) : Outcome :=
  .next (s.onChip fun c => Chip.afterReset (c.performed + 1) (c.performed + 1) (c.idleBytes 1))

end Sys2Proof.Machine
end

