-- ==== Sys2Proof/Machine/Chain.lean ====
section
/-! DEFINITION. The transaction chain's completions (R121 to R139), one per chain state. Each is applied to the state whose
`outstanding` is already `none` (R140). -/

namespace Sys2Proof.Machine

/-- Rule R121: the snapshot. -/
def takeSnapshot (resp : List Byte) (s : State) : State :=
  { s with statusBits := respByte resp 2, errorFlags := respByte resp 3 }

/-- Rule R122: the next state from the snapshot just written. -/
def afterSnapshot (submitOk : Bool) (s : State) : State :=
  if s.rx0Flag then issue .readRxBuf0 submitOk s
  else if s.rx1Flag then issue .readRxBuf1 submitOk s
  else if s.anyStatus then issue .clearStatusFlags submitOk s
  else atQuiescentPoint submitOk s

/-- Rules R121, R122: ReadFlags completion. -/
def completeReadFlags (resp : List Byte) (submitOk : Bool) (s : State) : State :=
  afterSnapshot submitOk (takeSnapshot resp s)

/-- Rules R124, R125: ReadRxBuf0 completion. -/
def completeReadRxBuf0 (resp : List Byte) (submitOk allocOk : Bool) (s : State) : State :=
  let delivered := deliver allocOk (decodeRx resp) s
  if delivered.rx1Flag then issue .readRxBuf1 submitOk delivered else transmitOrReadFlags submitOk delivered

/-- Rule R127: ReadRxBuf1 completion. -/
def completeReadRxBuf1 (resp : List Byte) (submitOk allocOk : Bool) (s : State) : State :=
  transmitOrReadFlags submitOk (deliver allocOk (decodeRx resp) s)

/-- Rule R133: the transmit acknowledgement; an empty slot is acknowledged by QueueResume alone. -/
def acknowledgeTransmit (s : State) : State :=
  match s.outgoingFrame with
  | some f => emit .queueResume (emit (.txDone f) { s with outgoingFrame := none })
  | none => emit .queueResume s

/-- Rule R133: ClearStatusFlags completion. -/
def completeClearStatusFlags (submitOk : Bool) (s : State) : State :=
  let acked := if s.tx0Flag then acknowledgeTransmit s else s
  if acked.anyError then issue .clearErrorFlags submitOk acked else issue .readFlags submitOk acked

/-- Rule R135: count a receive overflow, once for either bit or both, modulo 2^32. -/
def countOverflow (s : State) : State :=
  if s.overflow then { s with overflowCount := s.overflowCount + 1 } else s

/-- Rule R135: ClearErrorFlags completion. -/
def completeClearErrorFlags (submitOk : Bool) (s : State) : State := issue .readFlags submitOk (countOverflow s)

/-- Rule R137: LoadTransmitBuffer completion. -/
def completeLoadTransmitBuffer (submitOk : Bool) (s : State) : State := issue .requestSend submitOk s

/-- Rule R139: RequestSend completion. -/
def completeRequestSend (submitOk : Bool) (s : State) : State := issue .readFlags submitOk s

/-- Rule R140: the completion rule of a chain state. -/
def completeChain (c : ChainCmd) (resp : List Byte) (submitOk allocOk : Bool) (s : State) : State :=
  match c with
  | .readFlags => completeReadFlags resp submitOk s
  | .readRxBuf0 => completeReadRxBuf0 resp submitOk allocOk s
  | .readRxBuf1 => completeReadRxBuf1 resp submitOk allocOk s
  | .clearStatusFlags => completeClearStatusFlags submitOk s
  | .clearErrorFlags => completeClearErrorFlags submitOk s
  | .loadTransmitBuffer => completeLoadTransmitBuffer submitOk s
  | .requestSend => completeRequestSend submitOk s

end Sys2Proof.Machine
end

