-- ==== Sys2Proof/Machine/Startup.lean ====
section
/-! DEFINITION. The startup sequencer: Probe (R180), Start (R186), Stop (R195, R196) and the completions of the startup steps
(R183, R187 to R192). -/

namespace Sys2Proof.Machine

/-- Rule R180: Probe, legal in `Unprobed` only. -/
def execProbe (submitOk : Bool) (s : State) : Outcome :=
  .next (if s.ctl = .unprobed then issueInit .pReset submitOk s else s)

/-- Rule R186: Start, legal in `Off` only. -/
def execStart (mode : Mode) (submitOk : Bool) (s : State) : Outcome :=
  .next (if s.ctl = .off then issueInit .sReset submitOk (emit .transceiverEnable { s with mode := mode }) else s)

/-- Rule R195: the frame the slot holds is released. -/
def releaseSlot (s : State) : State :=
  match s.outgoingFrame with
  | some f => emit (.txReleased f) { s with outgoingFrame := none }
  | none => s

/-- Rule R195: Stop's effect in `Idle` and `Stalled(_)`. -/
def tearDown (s : State) : State :=
  { emit .transceiverDisable (releaseSlot s) with
    busy := false, interruptPending := false, transmitPending := false, outstanding := none, ctl := .off }

/-- Rules R195, R196: Stop. It has no step while a command is outstanding, and no effect outside Running. -/
def execStop (s : State) : Outcome :=
  match s.ctl with
  | .idle => .next (tearDown s)
  | .stalled _ => .next (tearDown s)
  | .wait _ => .fault .stopWhileOutstanding
  | .init _ => .fault .stopWhileOutstanding
  | .unprobed => .next s
  | .probeFailed => .next s
  | .off => .next s
  | .fault _ => .next s

/-- Rules R183, R213: the detection result. -/
def completeReadId (resp : List Byte) (s : State) : State :=
  if detected s.cfg (respByte resp 2) (respByte resp 3) then emit (.initResult .probeOk) { s with ctl := .off }
  else emit (.initResult .detectFail) { s with ctl := .probeFailed }

/-- Rules R192, R193, R194, R214: the mode poll's result. -/
def completePollMode (resp : List Byte) (submitOk timedOut : Bool) (s : State) : State :=
  if modeEntered s.cfg s.mode (respByte resp 2) then emit (.initResult .startOk) { s with ctl := .idle }
  else if timedOut then emit (.initResult .modeTimeout) (emit .transceiverDisable { s with ctl := .off })
  else issueInit .sPollMode submitOk s

/-- Rules R183, R187 to R192: the completion of a startup step, applied to the state whose `outstanding` is already `none`. -/
def completeInit (q : InitStep) (resp : List Byte) (submitOk timedOut : Bool) (s : State) : State :=
  match q with
  | .pReset => issueInit .pReadId submitOk s
  | .pReadId => completeReadId resp s
  | .sReset => issueInit .sBitTiming submitOk s
  | .sBitTiming => issueInit .sIntEnable submitOk s
  | .sIntEnable => issueInit .sRxb0Ctrl submitOk s
  | .sRxb0Ctrl => issueInit .sRxb1Ctrl submitOk s
  | .sRxb1Ctrl => issueInit .sMode submitOk s
  | .sMode => issueInit .sPollMode submitOk s
  | .sPollMode => completePollMode resp submitOk timedOut s

end Sys2Proof.Machine
end

