-- ==== Sys2Proof/Machine/Complete.lean ====
section
/-! DEFINITION. BusComplete: the legality of a completion (R56, R141) and its dispatch (R140). -/

namespace Sys2Proof.Machine

/-- Rule R140: the completion rule that `ctl` selects, on the state with nothing outstanding; none outside `Wait(_)` and
`Init(_)` (R141). -/
def complete (resp : List Byte) (submitOk allocOk timedOut : Bool) (s : State) : Option State :=
  match s.ctl with
  | .wait c => some (completeChain c resp submitOk allocOk { s with outstanding := none })
  | .init q => some (completeInit q resp submitOk timedOut { s with outstanding := none })
  | .unprobed => none
  | .probeFailed => none
  | .off => none
  | .idle => none
  | .stalled _ => none
  | .fault _ => none

/-- Rules R56, R140, R141: BusComplete. -/
def execBusComplete (resp : List Byte) (submitOk allocOk timedOut : Bool) (s : State) : Outcome :=
  match s.outstanding with
  | none => .fault .completionNotExpected
  | some cmd =>
    if resp.length = cmd.length then
      match complete resp submitOk allocOk timedOut s with
      | some t => .next t
      | none => .fault .completionNotExpected
    else .fault .completionWrongLength

end Sys2Proof.Machine
end

