-- ==== Sys2Proof/Machine/Gate.lean ====
section
/-! DEFINITION. The event coalescing gate's entry points: NotifyInterrupt (R100, R101) and RequestTransmit (R103, R104). -/

namespace Sys2Proof.Machine

/-- Rules R100, R227: an interrupt taken while Running. -/
def takeInterrupt (submitOk : Bool) (s : State) : State :=
  if s.busy then { s with interruptPending := true }
  else issue .readFlags submitOk { s with busy := true }

/-- Rules R100, R101: NotifyInterrupt. -/
def execNotifyInterrupt (submitOk : Bool) (s : State) : Outcome :=
  .next (if s.ctl.running then takeInterrupt submitOk s else s)

/-- Rule R104: a request accepted. The replies come before the command (R104's order of outputs). -/
def acceptRequest (f : Frame) (submitOk : Bool) (s : State) : State :=
  let stored := emit .queueStop (emit (.txReply .accepted) { s with outgoingFrame := some f })
  if s.busy then { stored with transmitPending := true }
  else issue .loadTransmitBuffer submitOk { stored with busy := true }

/-- Rules R103, R104: RequestTransmit; the first case of rule R103 that applies gives the reply. -/
def execRequestTransmit (f : Frame) (submitOk : Bool) (s : State) : Outcome :=
  .next
    (if !f.wellFormed then emit (.txReply .rejectedInvalid) s
     else if !s.ctl.running then emit (.txReply .rejectedNotRunning) s
     else if s.outgoingFrame.isSome then emit (.txReply .rejectedSlotFull) s
     else acceptRequest f submitOk s)

end Sys2Proof.Machine
end

