-- ==== Sys2Proof/Machine/Dispatch.lean ====
section
/-! DEFINITION. The dispatch of every instruction to its meaning. -/

namespace Sys2Proof.Machine

def exec (i : Instr) (s : State) : Host.Outcome State Fault Refusal :=
  match i with
  -- the bus commands (R71)
  | .write addr data => Sys2Proof.Machine.execWrite addr data s
  | .read addr clock => Sys2Proof.Machine.execRead addr clock s
  | .bitModify addr mask data => Sys2Proof.Machine.execBitModify addr mask data s
  | .loadTxBuffer0 header data => Sys2Proof.Machine.execLoadTxBuffer0 header data s
  | .loadTxBuffer1 header data => Sys2Proof.Machine.execLoadTxBuffer1 header data s
  | .loadTxBuffer2 header data => Sys2Proof.Machine.execLoadTxBuffer2 header data s
  | .requestToSend0 => Sys2Proof.Machine.execRequestToSend0 s
  | .requestToSend1 => Sys2Proof.Machine.execRequestToSend1 s
  | .requestToSend2 => Sys2Proof.Machine.execRequestToSend2 s
  | .readRxBuffer0 clock => Sys2Proof.Machine.execReadRxBuffer0 clock s
  | .readRxBuffer1 clock => Sys2Proof.Machine.execReadRxBuffer1 clock s
  | .reset => Sys2Proof.Machine.execReset s
  -- the stimuli (R85)
  | .notifyInterrupt submit => Sys2Proof.Machine.execNotifyInterrupt submit s
  | .requestTransmit frame submit => Sys2Proof.Machine.execRequestTransmit frame submit s
  | .busComplete resp submit alloc timeout => Sys2Proof.Machine.execBusComplete resp submit alloc timeout s
  | .probe submit => Sys2Proof.Machine.execProbe submit s
  | .start mode submit => Sys2Proof.Machine.execStart mode submit s
  | .stop => Sys2Proof.Machine.execStop s

end Sys2Proof.Machine
end

