-- ==== Sys2Proof/Machine/Step.lean ====
section
/-! DEFINITION. One step: the next input takes effect. The block "never steps on its own" (R7), so with nothing to come the
machine stays as it is. -/

namespace Sys2Proof.Machine

/-- One step of the machine (R7, R18): the first input of the inbox is taken and has its whole effect. -/
def step (s : State) : Host.Outcome State Fault Refusal :=
  match nextInput s with
  | none => .next s
  | some (.chipEvent e, t) => .next (t.onChip fun c => c.event t.cfg e)
  | some (.message m, t) =>
    match decode m with
    | .ok i => exec i t
    | .error e => .refused (.undecodable e)

/-- The state whose very next step takes the instruction of a table word. -/
def State.withFetchWord (s : State) (nbits w : Nat) : State := placeMessage (tableMessage nbits w) s

end Sys2Proof.Machine
end

