-- ==== Sys2Proof/Machine/Script.lean ====
section
/-! DEFINITION. The stimulus-script syntax of rule R86: one stimulus a line, read into the stimulus instruction it denotes. -/

namespace Sys2Proof.Machine.Script

/-- The draws written at the end of a line; rule R86's defaults. -/
structure Draws where
  submit  : Bool := true
  alloc   : Bool := true
  timeout : Bool := false
deriving DecidableEq, Repr

/-- The words of a line. -/
def words (text : List Char) : List (List Char) := (text.splitOn ' ').filter (· ≠ [])

/-- The digits of rule R86's `<hex>`, each at the place of its value. -/
def digits : List Char := "0123456789ABCDEF".toList

/-- A word of digits, upper case as in the spec's programs or lower case, to its number; none for a word without digits. -/
def hexNumber (w : List Char) : Option Nat :=
  if w = [] then none
  else (w.mapM fun c => digits.idxOf? c.toUpper).map (Nat.ofDigits 16 ∘ List.reverse)

/-- One of rule R86's `<hex bytes>`: two digits. -/
def hexByte (w : List Char) : Option Byte :=
  if w.length = 2 then (hexNumber w).map (BitVec.ofNat 8) else none

/-- The hexadecimal bytes at the head of the words, and the words after them. -/
def hexBytes : List (List Char) → List Byte × List (List Char)
  | [] => ([], [])
  | w :: rest =>
    match hexByte w with
    | some b => let more := hexBytes rest; (b :: more.1, more.2)
    | none => ([], w :: rest)

/-- `w` without the prefix `p`. -/
def after (p w : List Char) : Option (List Char) := if p.isPrefixOf w then some (w.drop p.length) else none

/-- The draws at the end of a line; `all` when the stimulus has the draws `alloc` and `timeout` beside `submit`. -/
def draws (all : Bool) (d : Draws) : List (List Char) → Option Draws
  | [] => some d
  | w :: rest =>
    if w = "submit=ok".toList then draws all { d with submit := true } rest
    else if w = "submit=fail".toList then draws all { d with submit := false } rest
    else if all && w == "alloc=ok".toList then draws all { d with alloc := true } rest
    else if all && w == "alloc=fail".toList then draws all { d with alloc := false } rest
    else if all && w == "timeout=yes".toList then draws all { d with timeout := true } rest
    else if all && w == "timeout=no".toList then draws all { d with timeout := false } rest
    else none

/-- The frame of a TX line. The data bytes given number exactly `len`; a remote frame may give none. -/
def makeFrame (id : Nat) (ext rtr : Bool) (len : Nat) (data : List Byte) : Option Frame :=
  if len ≤ 8 ∧ (data.length = len ∨ (rtr = true ∧ data = [])) ∧ id < 2 ^ 32 then
    some { id := BitVec.ofNat 32 id, ext := ext, rtr := rtr, len := len,
           data := #v[respByte data 0, respByte data 1, respByte data 2, respByte data 3,
                      respByte data 4, respByte data 5, respByte data 6, respByte data 7] }
  else none

/-- `data=` and the bytes after it, if a TX line has them. -/
def dataWords (ws : List (List Char)) : List Byte × List (List Char) :=
  match ws with
  | [] => ([], [])
  | w :: rest =>
    match after "data=".toList w with
    | some first => hexBytes (first :: rest)
    | none => ([], w :: rest)

/-- A TX line from `len=` on. -/
def txFromLength (id : Nat) (ext rtr : Bool) : List (List Char) → Option Instr
  | [] => none
  | w :: rest =>
    match (after "len=".toList w).bind hexNumber with
    | none => none
    | some len =>
      let given := dataWords rest
      match makeFrame id ext rtr len given.1, draws false {} given.2 with
      | some f, some d => some (.requestTransmit f d.submit)
      | _, _ => none

/-- A TX line from the optional `rtr` on. -/
def txFromRtr (id : Nat) (ext : Bool) : List (List Char) → Option Instr
  | [] => none
  | w :: rest => if w = "rtr".toList then txFromLength id ext true rest else txFromLength id ext false (w :: rest)

/-- A TX line's operands. -/
def tx : List (List Char) → Option Instr
  | idWord :: format :: rest =>
    match (after "id=".toList idWord).bind hexNumber with
    | none => none
    | some id =>
      if format = "std".toList then txFromRtr id false rest
      else if format = "ext".toList then txFromRtr id true rest
      else none
  | _ => none

/-- A START line's base mode. -/
def baseMode (w : List Char) : Option BaseMode :=
  if w = "normal".toList then some .normal
  else if w = "loopback".toList then some .loopback
  else if w = "listen".toList then some .listenOnly
  else none

/-- A START line's operands. -/
def start : List (List Char) → Option Instr
  | [] => none
  | w :: rest =>
    match baseMode w with
    | none => none
    | some base =>
      match rest with
      | [] => some (.start ⟨base, false⟩ true)
      | v :: more =>
        if v = "oneshot".toList then (draws false {} more).map fun d => .start ⟨base, true⟩ d.submit
        else (draws false {} (v :: more)).map fun d => .start ⟨base, false⟩ d.submit

/-- Rule R86: the stimulus a script line denotes. -/
def line (text : List Char) : Option Instr :=
  match words text with
  | [] => none
  | w :: rest =>
    if w = "IRQ".toList then (draws false {} rest).map fun d => .notifyInterrupt d.submit
    else if w = "TX".toList then tx rest
    else if w = "DONE".toList then
      let given := hexBytes rest
      (draws true {} given.2).map fun d => .busComplete given.1 d.submit d.alloc d.timeout
    else if w = "PROBE".toList then (draws false {} rest).map fun d => .probe d.submit
    else if w = "START".toList then start rest
    else if w = "STOP".toList then (if rest.isEmpty then some .stop else none)
    else none

/-- A script's lines as inputs of the machine; none when a line denotes no stimulus. -/
def inputs : List (List Char) → Option (List Input)
  | [] => some []
  | text :: rest =>
    match line text, inputs rest with
    | some i, some more => some (.message (encode i) :: more)
    | _, _ => none

end Sys2Proof.Machine.Script
end

