-- ==== Sys2Proof/Safety.lean ====
section
/-! DEFINITION. The terms claims are stated in: which stimuli have a step, the invariant of the block, what a submission leaves
(a transcription of rules R108 and R181 as records), the trace's bus commands, when the snapshot is read, and the premises a
claim may make about the other agents. -/

namespace Sys2Proof.Machine

/-! ### Stimuli with a step (R222) -/

/-- Rules R56, R141, R196: the instruction has a step in the state. -/
def Legal (i : Instr) (s : State) : Prop :=
  match i with
  | .busComplete resp _ _ _ => s.ctl.awaiting = true ∧ s.outstanding.map List.length = some resp.length
  | .stop => s.ctl.awaiting = false
  | .write _ _ => True
  | .read _ _ => True
  | .bitModify _ _ _ => True
  | .loadTxBuffer0 _ _ => True
  | .loadTxBuffer1 _ _ => True
  | .loadTxBuffer2 _ _ => True
  | .requestToSend0 => True
  | .requestToSend1 => True
  | .requestToSend2 => True
  | .readRxBuffer0 _ => True
  | .readRxBuffer1 _ => True
  | .reset => True
  | .notifyInterrupt _ => True
  | .requestTransmit _ _ => True
  | .probe _ => True
  | .start _ _ => True

/-- The chain waits for command `c`, and `resp` has the outstanding command's length (R56). -/
def AwaitsChain (c : ChainCmd) (resp : List Byte) (s : State) : Prop :=
  s.ctl = .wait c ∧ s.outstanding.map List.length = some resp.length

/-- The startup sequencer waits for step `q`, and `resp` has the outstanding command's length (R56). -/
def AwaitsInit (q : InitStep) (resp : List Byte) (s : State) : Prop :=
  s.ctl = .init q ∧ s.outstanding.map List.length = some resp.length

/-! ### What a submission leaves -/

/-- Rules R108 and R211, as a record: the command is emitted; accepted, it is outstanding and the chain waits; refused, the
refusal is logged and the chain is stalled. -/
def submitted (c : ChainCmd) (cmd : List Byte) (ok : Bool) (s : State) : State :=
  if ok then { s with out := s.out ++ [.busCmd cmd], outstanding := some cmd, ctl := .wait c }
  else { s with out := s.out ++ [.busCmd cmd, .logSubmitFail c], outstanding := none, ctl := .stalled c }

/-- Rules R181 and R217 for a probe step, as a record. -/
def probeSubmitted (q : InitStep) (cmd : List Byte) (ok : Bool) (s : State) : State :=
  if ok then { s with out := s.out ++ [.busCmd cmd], outstanding := some cmd, ctl := .init q }
  else { s with out := s.out ++ [.busCmd cmd, .initResult .initBusError], outstanding := none, ctl := .probeFailed }

/-- Rules R181 and R217 for a start step, as a record. -/
def startSubmitted (q : InitStep) (cmd : List Byte) (ok : Bool) (s : State) : State :=
  if ok then { s with out := s.out ++ [.busCmd cmd], outstanding := some cmd, ctl := .init q }
  else
    { s with out := s.out ++ [.busCmd cmd, .transceiverDisable, .initResult .initBusError], outstanding := none, ctl := .off }

/-- `[03 2C 00 00]`, the ReadFlags command (R120). -/
def readFlagsBytes : List Byte := [0x03, 0x2C, 0x00, 0x00]

/-! ### The output trace -/

/-- The command an output event submits. -/
def OutEvent.command? : OutEvent → Option (List Byte)
  | .busCmd bytes => some bytes
  | .rxFrame _ => none
  | .rxDrop => none
  | .txDone _ => none
  | .txReleased _ => none
  | .queueStop => none
  | .queueResume => none
  | .txReply _ => none
  | .transceiverEnable => none
  | .transceiverDisable => none
  | .initResult _ => none
  | .logSubmitFail _ => none

/-- The commands among output events, oldest first. -/
def commandsOf (events : List OutEvent) : List (List Byte) := events.filterMap OutEvent.command?

/-- Several instructions one after the other; none when one of them does not answer a next state. -/
def execAll : List Instr → State → Option State
  | [], s => some s
  | i :: rest, s =>
    match exec i s with
    | .next t => execAll rest t
    | .fault _ => none
    | .refused _ => none

/-! ### The invariant of the block -/

/-- Rule R36: the value of `busy` in each state of the FSM. -/
def Ctl.busyValue : Ctl → Bool
  | .unprobed => false
  | .init _ => false
  | .probeFailed => false
  | .off => false
  | .idle => false
  | .wait _ => true
  | .stalled _ => true
  | .fault _ => true

/-- Rule R34: idle implies nothing pending. -/
def IdleMeansNothingPending (s : State) : Prop :=
  s.busy = false → s.interruptPending = false ∧ s.transmitPending = false

/-- What every step keeps (R29, R32, R33, R34, R36, R50, R82, R109, R132). -/
structure Inv (s : State) : Prop where
  /-- R29: a command is outstanding exactly in `Init(_)` and `Wait(_)`. -/
  outstanding_awaiting : s.outstanding.isSome = s.ctl.awaiting
  /-- R109: in `Wait(c)` the outstanding command is that of `c`. -/
  wait_command : ∀ c, s.ctl = .wait c → s.outstanding = command c s
  /-- R82: in `Init(q)` the outstanding command is that of `q`. -/
  init_command : ∀ q, s.ctl = .init q → s.outstanding = some (initCommand q s)
  /-- R34. -/
  nothing_pending : IdleMeansNothingPending s
  /-- R36. -/
  busy_ctl : s.busy = s.ctl.busyValue
  /-- R35: outside Running no frame is held. -/
  slot_running : s.ctl.running = false → s.outgoingFrame = none
  /-- R103, R104: a held frame is well formed. -/
  slot_wellFormed : ∀ f, s.outgoingFrame = some f → f.wellFormed = true
  /-- R132: ClearStatusFlags never clears a receive flag. -/
  clear_mask : s.ctl = .wait .clearStatusFlags → s.rx0Flag = false ∧ s.rx1Flag = false
  /-- The register memory is in canonical form, inside the 8-bit space (R50). -/
  regs_wf : Memory.wf s.chip.regs = true

/-- Rule R220: "A faulted state is never a good final state". -/
def NotFaulted (s : State) : Prop := ∀ code, s.ctl ≠ .fault code

/-! ### The snapshot (R37) -/

/-- The states of the FSM in which the next completion reads the snapshot before it is overwritten (R125, R133, R135). -/
def Ctl.readsSnapshot : Ctl → Bool
  | .wait .readRxBuf0 => true
  | .wait .clearStatusFlags => true
  | .wait .clearErrorFlags => true
  | .wait .readFlags => false
  | .wait .readRxBuf1 => false
  | .wait .loadTransmitBuffer => false
  | .wait .requestSend => false
  | .unprobed => false
  | .init _ => false
  | .probeFailed => false
  | .off => false
  | .idle => false
  | .stalled _ => false
  | .fault _ => false

/-- The state with another snapshot. -/
def State.withSnapshot (sb ef : Byte) (s : State) : State := { s with statusBits := sb, errorFlags := ef }

/-- The second outcome is the first, up to the snapshot `sb`, `ef` while nothing is about to read it. -/
def AgreeUpToSnapshot (sb ef : Byte) (a b : Outcome) : Prop :=
  match a, b with
  | .next t, .next u => u = t ∨ (t.ctl.readsSnapshot = false ∧ u = t.withSnapshot sb ef)
  | .fault r, .fault q => r = q
  | .refused r, .refused q => r = q
  | _, _ => False

/-! ### Premises about the other agents (R8, R225, R243) -/

/-- A response that is the chip's own: what the chip drove in its last transaction. -/
def ChipAnswers (resp : List Byte) (s : State) : Prop := resp = s.chip.response

/-- Rule R225: the chip holds its interrupt line low: a flag of 0x2C is set that the interrupt-enable register lets through
(PRESUMED: the spec gives the routing, not the formula). -/
def Chip.lineLow (cfg : Config) (c : Chip) : Bool := anySet (c.reg addrInterruptFlag) (c.reg cfg.inteAddr)

/-- Rule R102: the line falls between two states, the one occasion for a NotifyInterrupt. -/
def FallingEdge (s t : State) : Prop := s.chip.lineLow s.cfg = false ∧ t.chip.lineLow t.cfg = true

end Sys2Proof.Machine
end

