-- ==== Sys2Proof/Certificates/Slice0/Obligations.lean ====
section
/-! DEFINITION. The statements for the provers. Each docstring names the rule of spec/ it formalises; where a clause rests on a
decision or a derivation the spec marks as its own, or on a choice of this model's, the docstring says so. -/

open Sys2Proof Sys2Proof.Machine

/-! ### Encodings -/

/-- Words written out from rules R71, R82 and R85 decode to the instructions they stand for; the operand bytes of a stimulus
are the model's layout (assumption 3). -/
def Obligations.WrittenOutWordsDecode : Prop :=
  decode ⟨.bus, [0x03, 0x2C, 0x00, 0x00]⟩ = .ok (.read 0x2C [0x00, 0x00])
    ∧ decode ⟨.bus, [0x02, 0x28, 0x00, 0x90, 0x02]⟩ = .ok (.write 0x28 [0x00, 0x90, 0x02])
    ∧ decode ⟨.bus, [0x05, 0x2C, 0x24, 0x00]⟩ = .ok (.bitModify 0x2C 0x24 0x00)
    ∧ decode ⟨.bus, [0x40, 0x24, 0x60, 0x00, 0x00, 0x01, 0xAA]⟩ = .ok (.loadTxBuffer0 ⟨0x24, 0x60, 0x00, 0x00, 0x01⟩ [0xAA])
    ∧ decode ⟨.bus, [0x81]⟩ = .ok .requestToSend0
    ∧ decode ⟨.bus, [0xC0]⟩ = .ok .reset
    ∧ decode ⟨.stimulus, [0x01]⟩ = .ok (.notifyInterrupt true)
    ∧ decode ⟨.stimulus, [0x06]⟩ = .ok .stop

/-- Decoding an encoded well-formed instruction gives it back, operands and all. -/
def Obligations.DecodeInvertsEncode : Prop :=
  ∀ i : Instr, i.wellFormed = true → decode (encode i) = .ok i

/-- Every message that decodes is the encoding of a well-formed instruction: no two messages stand for one instruction. -/
def Obligations.EncodeInvertsDecode : Prop :=
  ∀ (m : Message) (i : Instr), decode m = .ok i → i.wellFormed = true ∧ encode i = m

/-- Rules R84, R85, R223: a stimulus with a reserved code has no step, and a byte string that does not begin with an opcode of
rule R71 is no command. -/
def Obligations.ReservedCodesAreRefused : Prop :=
  (∀ (s : State) (b : Byte) (rest : List Byte) (later : List Input),
      b &&& 0x0F = 0x00 ∨ 0x07 ≤ (b &&& 0x0F).toNat →
      step { s with inbox := .message ⟨.stimulus, b :: rest⟩ :: later }
        = .refused (.undecodable (.reservedStimulus (b &&& 0x0F))))
    ∧ (∀ (s : State) (op : Byte) (rest : List Byte) (later : List Input),
      op ∉ ([0x02, 0x03, 0x05, 0x40, 0x42, 0x44, 0x81, 0x82, 0x84, 0x90, 0x94, 0xC0] : List Byte) →
      step { s with inbox := .message ⟨.bus, op :: rest⟩ :: later } = .refused (.undecodable (.unknownOpcode op)))

/-- Rule R83: the length a stream decoder tells is the length of the command, and only READ and WRITE leave it to the
transport. -/
def Obligations.StreamLengthIsCommandLength : Prop :=
  ∀ i : Instr, i.wellFormed = true → (encode i).channel = .bus →
    (∀ n, streamLength (encode i).bytes = some n → (encode i).bytes.length = n)
      ∧ (streamLength (encode i).bytes = none ↔ (∃ a c, i = .read a c) ∨ (∃ a d, i = .write a d))

/-- Rule R109: the command bytes of every chain state. The bytes are the spec's own decisions: ReadFlags D3 and D4 (R120), the
clear commands D7 and D8 (R132, R134), the load layout D11 (R136), buffer 0 D10 (R138); assumption 22, PRESUMED. -/
def Obligations.ChainCommandBytes : Prop :=
  ∀ s : State,
    command .readFlags s = some [0x03, 0x2C, 0x00, 0x00]
      ∧ command .readRxBuf0 s = some (0x90 :: List.replicate 13 0x00)
      ∧ command .readRxBuf1 s = some (0x94 :: List.replicate 13 0x00)
      ∧ command .clearStatusFlags s = some [0x05, 0x2C, s.statusBits, 0x00]
      ∧ command .clearErrorFlags s = some [0x05, 0x2D, s.errorFlags, 0x00]
      ∧ command .loadTransmitBuffer s = s.outgoingFrame.map (encodeTx s.cfg.txStdRtrInDlc)
      ∧ command .requestSend s = some [0x81]

/-- Every command the chain submits for a well-formed held frame, and every startup command, is a well-formed bus command of
the opcode table (rules R82, R109). -/
def Obligations.IssuedCommandsAreWellFormed : Prop :=
  ∀ s : State, (∀ f, s.outgoingFrame = some f → f.wellFormed = true) →
    (∀ c cmd, command c s = some cmd → ∃ i : Instr, decode ⟨.bus, cmd⟩ = .ok i ∧ i.wellFormed = true)
      ∧ (∀ q, ∃ i : Instr, decode ⟨.bus, initCommand q s⟩ = .ok i ∧ i.wellFormed = true)

/-- Rules R72 and R84: whatever instruction is executed, a command it adds to the trace begins with one of the eight opcodes the
block emits; LOAD_TX_BUFFER and REQUEST_TO_SEND of the buffers 1 and 2 are not among them. -/
def Obligations.OnlyTheBlocksOpcodesAreEmitted : Prop :=
  ∀ (i : Instr) (s t : State), exec i s = .next t →
    ∀ cmd, OutEvent.busCmd cmd ∈ t.out → OutEvent.busCmd cmd ∈ s.out ∨
      ∃ op rest, cmd = op :: rest ∧ op ∈ ([0x02, 0x03, 0x05, 0x40, 0x81, 0x90, 0x94, 0xC0] : List Byte)

/-! ### Reset, stepping and the invariant -/

/-- Rule R40: the session at power-on. The spec marks these values as its own decision (D30); the source gives none. -/
def Obligations.ResetSession : Prop :=
  State.reset.ctl = .unprobed ∧ State.reset.busy = false ∧ State.reset.interruptPending = false
    ∧ State.reset.transmitPending = false ∧ State.reset.outgoingFrame = none ∧ State.reset.statusBits = 0x00
    ∧ State.reset.errorFlags = 0x00 ∧ State.reset.overflowCount = 0 ∧ State.reset.rxDropCount = 0
    ∧ State.reset.outstanding = none ∧ State.reset.mode = ⟨.normal, false⟩ ∧ State.reset.out = []

/-- The invariant holds at power-on, whatever the parameters and the inputs to come. -/
def Obligations.ResetMeetsInvariant : Prop :=
  ∀ (cfg : Config) (later : List Input), Inv { State.reset with cfg := cfg, inbox := later }

/-- Every step keeps the invariant of the block, from every state that meets it (R29, R33 to R36, R50, R109, R132; rules that the
spec in part derives). -/
def Obligations.EveryStepKeepsInvariant : Prop :=
  ∀ s t : State, Inv s → step s = .next t → Inv t

/-- Rule R34: idle implies nothing pending, at power-on and after every step from any state in which it holds. -/
def Obligations.IdleImpliesNothingPending : Prop :=
  (∀ (cfg : Config) (later : List Input), IdleMeansNothingPending { State.reset with cfg := cfg, inbox := later })
    ∧ ∀ s t : State, IdleMeansNothingPending s → step s = .next t → IdleMeansNothingPending t

/-- Rules R33, R105, R140: a step appends to the trace, submits at most one command, and submits one only when no other is
outstanding: either none was, or the step is the completion of the one that was. -/
def Obligations.AtMostOneCommandPerStep : Prop :=
  ∀ (i : Instr) (s t : State), Inv s → exec i s = .next t →
    ∃ events, t.out = s.out ++ events ∧ (commandsOf events).length ≤ 1
      ∧ (commandsOf events ≠ [] → s.outstanding = none ∨ ∃ resp a b c, i = .busComplete resp a b c)

/-- A step runs the decoded instruction on the state without its message; a message that decodes to nothing is refused; the
chip's own events change the chip alone; with nothing to come nothing changes (R7: the block never steps on its own). The inbox
is the model's (assumption 1). -/
def Obligations.StepRunsTheDecodedInstruction : Prop :=
  (∀ (s : State) (m : Message) (later : List Input) (i : Instr), s.inbox = .message m :: later → decode m = .ok i →
      step s = exec i { s with inbox := later })
    ∧ (∀ (s : State) (m : Message) (later : List Input) (e : DecodeError), s.inbox = .message m :: later →
      decode m = .error e → step s = .refused (.undecodable e))
    ∧ (∀ (s : State) (e : ChipEvent) (later : List Input), s.inbox = .chipEvent e :: later →
      step s = .next { s with inbox := later, chip := s.chip.event s.cfg e })
    ∧ (∀ s : State, s.inbox = [] → step s = .next s)

/-- Rules R56, R141, R196, R222: an instruction that has a step answers a next state; the stimuli without one stop, each under
the name of its case. -/
def Obligations.LegalStimuliComplete : Prop :=
  (∀ (i : Instr) (s : State), Legal i s → ∃ t, exec i s = .next t)
    ∧ (∀ (s : State) (resp : List Byte) (a b c : Bool), s.outstanding = none ∨ s.ctl.awaiting = false ∧
        s.outstanding.map List.length = some resp.length →
        exec (.busComplete resp a b c) s = .fault .completionNotExpected)
    ∧ (∀ (s : State) (cmd resp : List Byte) (a b c : Bool), s.outstanding = some cmd → resp.length ≠ cmd.length →
        exec (.busComplete resp a b c) s = .fault .completionWrongLength)
    ∧ (∀ s : State, s.ctl.awaiting = true → exec .stop s = .fault .stopWhileOutstanding)

/-- Rule R242: no stimulus changes the parameters; nor does a bus command, which changes the chip only (R241). That no
instruction is refused, and that none touches the inputs to come, are the model's own clauses (assumptions 15 and 1). -/
def Obligations.ParametersNeverChange : Prop :=
  ∀ (i : Instr) (s : State),
    (∀ r, exec i s ≠ .refused r) ∧ ∀ t, exec i s = .next t → t.cfg = s.cfg ∧ t.inbox = s.inbox

/-! ### The gate -/

/-- Rules R100, R101: NotifyInterrupt outside Running, while busy, and while idle, where it starts the chain at ReadFlags with
either verdict of the transport. (R101's effect is the spec's decision D22.) -/
def Obligations.NotifyInterruptEffect : Prop :=
  ∀ (s : State) (ok : Bool),
    (s.ctl.running = false → exec (.notifyInterrupt ok) s = .next s)
      ∧ (s.ctl.running = true → s.busy = true →
        exec (.notifyInterrupt ok) s = .next { s with interruptPending := true })
      ∧ (s.ctl.running = true → s.busy = false →
        exec (.notifyInterrupt ok) s = .next (submitted .readFlags readFlagsBytes ok { s with busy := true }))

/-- Rule R110: while a chain runs, a second notification leaves what the first leaves; the flag is kept until a quiescent
point; and there, with no transmit pending (rule R111 puts one first), it costs one more ReadFlags, whose empty snapshot then
ends the chain. -/
def Obligations.TwoInterruptsCostOneCycle : Prop :=
  (∀ (s : State) (a b : Bool), s.ctl.running = true → s.busy = true →
      exec (.notifyInterrupt a) s = .next { s with interruptPending := true }
        ∧ exec (.notifyInterrupt b) { s with interruptPending := true } = .next { s with interruptPending := true })
    ∧ (∀ (s t : State) (c : ChainCmd) (resp : List Byte) (ok al tm : Bool),
      s.ctl = .wait c → c ≠ .readFlags ∨ respByte resp 2 ≠ 0x00 → exec (.busComplete resp ok al tm) s = .next t →
      t.interruptPending = s.interruptPending)
    ∧ (∀ (s : State) (r0 r1 ef r0' r1' ef' : Byte) (ok al tm : Bool), AwaitsChain .readFlags [r0, r1, 0x00, ef] s →
      s.interruptPending = true → s.transmitPending = false →
      ∃ t u, exec (.busComplete [r0, r1, 0x00, ef] true al tm) s = .next t
        ∧ t.ctl = .wait .readFlags ∧ t.interruptPending = false ∧ t.out = s.out ++ [.busCmd readFlagsBytes]
        ∧ exec (.busComplete [r0', r1', 0x00, ef'] ok al tm) t = .next u
        ∧ u.ctl = .idle ∧ u.busy = false ∧ u.interruptPending = false ∧ u.out = t.out)

/-- Rule R103: the rejected requests, in the order of its cases: a reply and no other change. (Cases 1 and 2 are the spec's
decisions D16 and D22.) -/
def Obligations.RequestTransmitRejected : Prop :=
  ∀ (s : State) (f g : Frame) (ok : Bool),
    (f.wellFormed = false →
        exec (.requestTransmit f ok) s = .next { s with out := s.out ++ [.txReply .rejectedInvalid] })
      ∧ (f.wellFormed = true → s.ctl.running = false →
        exec (.requestTransmit f ok) s = .next { s with out := s.out ++ [.txReply .rejectedNotRunning] })
      ∧ (f.wellFormed = true → s.ctl.running = true → s.outgoingFrame = some g →
        exec (.requestTransmit f ok) s = .next { s with out := s.out ++ [.txReply .rejectedSlotFull] })

/-- Rule R104: the accepted request, while busy and while idle. (The outputs are the spec's decision D16.) -/
def Obligations.RequestTransmitAccepted : Prop :=
  ∀ (s : State) (f : Frame) (ok : Bool), f.wellFormed = true → s.ctl.running = true → s.outgoingFrame = none →
    (s.busy = true → exec (.requestTransmit f ok) s = .next
        { s with outgoingFrame := some f, transmitPending := true, out := s.out ++ [.txReply .accepted, .queueStop] })
      ∧ (s.busy = false → exec (.requestTransmit f ok) s = .next
        (submitted .loadTransmitBuffer (encodeTx s.cfg.txStdRtrInDlc f) ok
          { s with outgoingFrame := some f, busy := true, out := s.out ++ [.txReply .accepted, .queueStop] }))

/-- Rule R32: when a frame is well formed. (The spec's decision D14.) -/
def Obligations.FrameWellFormedMeaning : Prop :=
  ∀ f : Frame, f.wellFormed = true ↔
    f.len ≤ 8 ∧ (f.ext = true → f.id.toNat < 2 ^ 29) ∧ (f.ext = false → f.id.toNat < 2 ^ 11)
      ∧ (∀ i : Fin 8, f.len ≤ i.val → f.data[i] = 0) ∧ (f.rtr = true → ∀ i : Fin 8, f.data[i] = 0)

/-- Rule R106: the quiescent point, reached by the completion of ReadFlags with an empty status snapshot: a pending transmit
before a pending interrupt before going idle, each flag cleared as it is consumed. -/
def Obligations.QuiescentPoint : Prop :=
  ∀ (s : State) (r0 r1 ef : Byte) (ok al tm : Bool), AwaitsChain .readFlags [r0, r1, 0x00, ef] s →
    let read : State := { s with outstanding := none, statusBits := 0x00, errorFlags := ef }
    (∀ f, s.transmitPending = true → s.outgoingFrame = some f →
        exec (.busComplete [r0, r1, 0x00, ef] ok al tm) s = .next
          (submitted .loadTransmitBuffer (encodeTx s.cfg.txStdRtrInDlc f) ok { read with transmitPending := false }))
      ∧ (s.transmitPending = true → s.outgoingFrame = none →
        exec (.busComplete [r0, r1, 0x00, ef] ok al tm) s = .next
          { read with transmitPending := false, ctl := .fault .loadNoFrame })
      ∧ (s.transmitPending = false → s.interruptPending = true →
        exec (.busComplete [r0, r1, 0x00, ef] ok al tm) s = .next
          (submitted .readFlags readFlagsBytes ok { read with interruptPending := false }))
      ∧ (s.transmitPending = false → s.interruptPending = false →
        exec (.busComplete [r0, r1, 0x00, ef] ok al tm) s = .next { read with busy := false, ctl := .idle })

/-- Rule R111: with both flags set at a quiescent point the chain enters LoadTransmitBuffer next, not ReadFlags;
`interruptPending` survives, and is consumed at the next quiescent point, after RequestSend and ReadFlags have run. This last
sentence the spec derives from R106 and R139. The submissions are accepted ones. -/
def Obligations.TransmitGoesBeforeRepoll : Prop :=
  ∀ (s : State) (f : Frame) (r0 r1 ef x a0 a1 ef' : Byte) (loaded : List Byte) (al tm : Bool),
    AwaitsChain .readFlags [r0, r1, 0x00, ef] s →
    s.interruptPending = true → s.transmitPending = true → s.outgoingFrame = some f →
    loaded.length = (encodeTx s.cfg.txStdRtrInDlc f).length →
    ∃ t u v w, exec (.busComplete [r0, r1, 0x00, ef] true al tm) s = .next t
      ∧ t.ctl = .wait .loadTransmitBuffer ∧ t.interruptPending = true ∧ t.transmitPending = false
      ∧ exec (.busComplete loaded true al tm) t = .next u ∧ u.ctl = .wait .requestSend ∧ u.interruptPending = true
      ∧ exec (.busComplete [x] true al tm) u = .next v ∧ v.ctl = .wait .readFlags ∧ v.interruptPending = true
      ∧ exec (.busComplete [a0, a1, 0x00, ef'] true al tm) v = .next w ∧ w.ctl = .wait .readFlags
      ∧ w.interruptPending = false ∧ w.outgoingFrame = some f

/-- Rule R43 and the access table of rule R20: an instruction that changes a gate flag or the slot is one of the steps the
rules name. -/
def Obligations.GateFlagWriters : Prop :=
  ∀ (i : Instr) (s t : State), exec i s = .next t →
    (t.busy ≠ s.busy → (∃ a, i = .notifyInterrupt a) ∨ (∃ f a, i = .requestTransmit f a) ∨ i = .stop
        ∨ (∃ resp a b c, i = .busComplete resp a b c) ∧ s.ctl = .wait .readFlags)
      ∧ (t.interruptPending ≠ s.interruptPending → (∃ a, i = .notifyInterrupt a) ∨ i = .stop
        ∨ (∃ resp a b c, i = .busComplete resp a b c) ∧ s.ctl = .wait .readFlags)
      ∧ (t.transmitPending ≠ s.transmitPending → (∃ f a, i = .requestTransmit f a) ∨ i = .stop
        ∨ (∃ resp a b c, i = .busComplete resp a b c) ∧
          (s.ctl = .wait .readFlags ∨ s.ctl = .wait .readRxBuf0 ∨ s.ctl = .wait .readRxBuf1))
      ∧ (t.outgoingFrame ≠ s.outgoingFrame → (∃ f a, i = .requestTransmit f a) ∨ i = .stop
        ∨ (∃ resp a b c, i = .busComplete resp a b c) ∧ s.ctl = .wait .clearStatusFlags)

/-- Rule R21: `busy` is cleared only at the quiescent point when nothing is pending, or by Stop. -/
def Obligations.BusyIsClearedOnlyAtRest : Prop :=
  ∀ (i : Instr) (s t : State), exec i s = .next t → s.busy = true → t.busy = false →
    i = .stop ∨ (s.ctl = .wait .readFlags ∧ t.ctl = .idle ∧ t.statusBits = 0x00
      ∧ s.transmitPending = false ∧ s.interruptPending = false)

/-! ### The chain -/

/-- Rules R121, R122: the completion of ReadFlags with a status bit set takes the snapshot and serves RX0, then RX1, then the
rest. (Which response bytes hold the snapshot is the spec's decision D4; QuiescentPoint states the empty snapshot.) -/
def Obligations.ReadFlagsCompletion : Prop :=
  ∀ (s : State) (r0 r1 sb ef : Byte) (ok al tm : Bool), AwaitsChain .readFlags [r0, r1, sb, ef] s →
    let read : State := { s with outstanding := none, statusBits := sb, errorFlags := ef }
    (sb.getLsbD s.cfg.rx0ifBit = true →
        exec (.busComplete [r0, r1, sb, ef] ok al tm) s = .next
          (submitted .readRxBuf0 (0x90 :: List.replicate 13 0x00) ok read))
      ∧ (sb.getLsbD s.cfg.rx0ifBit = false → sb.getLsbD s.cfg.rx1ifBit = true →
        exec (.busComplete [r0, r1, sb, ef] ok al tm) s = .next
          (submitted .readRxBuf1 (0x94 :: List.replicate 13 0x00) ok read))
      ∧ (sb.getLsbD s.cfg.rx0ifBit = false → sb.getLsbD s.cfg.rx1ifBit = false → sb ≠ 0x00 →
        exec (.busComplete [r0, r1, sb, ef] ok al tm) s = .next
          (submitted .clearStatusFlags [0x05, 0x2C, sb, 0x00] ok read))

/-- Rules R124, R125, R107, R166: the completion of ReadRxBuf0 delivers or drops the decoded frame, then serves a cached RX1,
else a pending transmit with a held frame, else reads the flags. (D15, D21: the spec's decisions.) -/
def Obligations.ReadRxBuf0Completion : Prop :=
  ∀ (s : State) (resp : List Byte) (ok al tm : Bool), resp.length = 14 → AwaitsChain .readRxBuf0 resp s →
    let got : State :=
      if al then { s with outstanding := none, out := s.out ++ [.rxFrame (decodeRx resp)] }
      else { s with outstanding := none, rxDropCount := s.rxDropCount + 1, out := s.out ++ [.rxDrop] }
    (s.statusBits.getLsbD s.cfg.rx1ifBit = true →
        exec (.busComplete resp ok al tm) s = .next
          (submitted .readRxBuf1 (0x94 :: List.replicate 13 0x00) ok got))
      ∧ (s.statusBits.getLsbD s.cfg.rx1ifBit = false →
        (∀ f, s.transmitPending = true → s.outgoingFrame = some f →
            exec (.busComplete resp ok al tm) s = .next
              (submitted .loadTransmitBuffer (encodeTx s.cfg.txStdRtrInDlc f) ok { got with transmitPending := false }))
          ∧ (s.transmitPending = false ∨ s.outgoingFrame = none →
            exec (.busComplete resp ok al tm) s = .next (submitted .readFlags readFlagsBytes ok got)))

/-- Rules R127, R107, R166: the completion of ReadRxBuf1. (D15, D21: the spec's decisions.) -/
def Obligations.ReadRxBuf1Completion : Prop :=
  ∀ (s : State) (resp : List Byte) (ok al tm : Bool), resp.length = 14 → AwaitsChain .readRxBuf1 resp s →
    let got : State :=
      if al then { s with outstanding := none, out := s.out ++ [.rxFrame (decodeRx resp)] }
      else { s with outstanding := none, rxDropCount := s.rxDropCount + 1, out := s.out ++ [.rxDrop] }
    (∀ f, s.transmitPending = true → s.outgoingFrame = some f →
        exec (.busComplete resp ok al tm) s = .next
          (submitted .loadTransmitBuffer (encodeTx s.cfg.txStdRtrInDlc f) ok { got with transmitPending := false }))
      ∧ (s.transmitPending = false ∨ s.outgoingFrame = none →
        exec (.busComplete resp ok al tm) s = .next (submitted .readFlags readFlagsBytes ok got))

/-- Rule R133: the completion of ClearStatusFlags acknowledges the transmission when TX0 was set, then clears the error flags if
there are any, else reads the flags. (An empty slot's QueueResume is the spec's decision D17.) -/
def Obligations.ClearStatusFlagsCompletion : Prop :=
  ∀ (s : State) (resp : List Byte) (ok al tm : Bool), AwaitsChain .clearStatusFlags resp s →
    let acked : State :=
      if s.statusBits.getLsbD s.cfg.tx0ifBit then
        match s.outgoingFrame with
        | some f => { s with outstanding := none, outgoingFrame := none, out := s.out ++ [.txDone f, .queueResume] }
        | none => { s with outstanding := none, out := s.out ++ [.queueResume] }
      else { s with outstanding := none }
    (s.errorFlags ≠ 0x00 →
        exec (.busComplete resp ok al tm) s = .next
          (submitted .clearErrorFlags [0x05, 0x2D, s.errorFlags, 0x00] ok acked))
      ∧ (s.errorFlags = 0x00 →
        exec (.busComplete resp ok al tm) s = .next (submitted .readFlags readFlagsBytes ok acked))

/-- Rule R135: the completion of ClearErrorFlags counts an overflow, once for either bit or both, modulo 2^32, and reads the
flags. (One count for both bits and the width are the spec's decision D9.) -/
def Obligations.ClearErrorFlagsCompletion : Prop :=
  ∀ (s : State) (resp : List Byte) (ok al tm : Bool), AwaitsChain .clearErrorFlags resp s →
    exec (.busComplete resp ok al tm) s = .next
      (submitted .readFlags readFlagsBytes ok
        (if s.errorFlags.getLsbD s.cfg.rx0ovrBit = true ∨ s.errorFlags.getLsbD s.cfg.rx1ovrBit = true then
          { s with outstanding := none, overflowCount := BitVec.ofNat 32 ((s.overflowCount.toNat + 1) % 2 ^ 32) }
        else { s with outstanding := none }))

/-- Rules R137, R139: LoadTransmitBuffer is followed by RequestSend, and RequestSend by ReadFlags, whatever the response. -/
def Obligations.TransmitPathCompletions : Prop :=
  ∀ (s : State) (resp : List Byte) (ok al tm : Bool),
    (AwaitsChain .loadTransmitBuffer resp s →
        exec (.busComplete resp ok al tm) s = .next (submitted .requestSend [0x81] ok { s with outstanding := none }))
      ∧ (AwaitsChain .requestSend resp s →
        exec (.busComplete resp ok al tm) s = .next
          (submitted .readFlags readFlagsBytes ok { s with outstanding := none }))

/-- Rule R25: the snapshot is overwritten by the completion of ReadFlags, both bytes together, and by no other instruction.
(That nothing else clears it is also the spec's decision D40.) -/
def Obligations.SnapshotIsWrittenByReadFlagsOnly : Prop :=
  ∀ (i : Instr) (s t : State), exec i s = .next t →
    (t.statusBits = s.statusBits ∧ t.errorFlags = s.errorFlags)
      ∨ ∃ resp a b c, i = .busComplete resp a b c ∧ s.ctl = .wait .readFlags
        ∧ t.statusBits = respByte resp 2 ∧ t.errorFlags = respByte resp 3

/-- Rule R37: two states that differ only in the snapshot, and are not about to read it, take the same steps, until the
snapshot is overwritten; so its reset values are never observed. -/
def Obligations.SnapshotIsWrittenBeforeItIsRead : Prop :=
  ∀ (i : Instr) (s : State) (sb ef : Byte), s.ctl.readsSnapshot = false →
    AgreeUpToSnapshot sb ef (exec i s) (exec i (s.withSnapshot sb ef))

/-- Rule R144: no instruction changes `ctl` while it is `Wait(_)`, except the BusComplete that ends the wait. -/
def Obligations.NoCancellation : Prop :=
  ∀ (i : Instr) (s t : State) (c : ChainCmd), Inv s → s.ctl = .wait c → exec i s = .next t →
    t.ctl = s.ctl ∧ t.outstanding = s.outstanding ∨ ∃ resp a b d, i = .busComplete resp a b d

/-- Rules R211, R212: a Stalled chain is left only by Stop; the interrupt sets its flag, Probe and Start have no effect.
(RequestTransmitAccepted and RequestTransmitRejected state the requests; D19 is the spec's decision.) -/
def Obligations.StalledIsLeftByStopOnly : Prop :=
  ∀ (s : State) (c : ChainCmd), s.ctl = .stalled c → s.busy = true →
    (∀ (i : Instr) (t : State), exec i s = .next t → i ≠ .stop → t.ctl = .stalled c ∧ t.busy = true)
      ∧ (∀ a, exec (.notifyInterrupt a) s = .next { s with interruptPending := true })
      ∧ (∀ a, exec (.probe a) s = .next s)
      ∧ (∀ m a, exec (.start m a) s = .next s)
      ∧ (∃ t, exec .stop s = .next t ∧ t.ctl = .off)

/-- Rule R211, both ways. While Running, an instruction whose submission the transport refuses, and that emits a command, leaves
the chain Stalled. And whenever an instruction leaves the chain Stalled that was not, nothing is outstanding, `busy` is true, and
the last two outputs are the refused command and its log entry. -/
def Obligations.RefusalStallsTheChain : Prop :=
  (∀ (i : Instr) (s t : State) (events : List OutEvent), Inv s → s.ctl.running = true →
      (i = .notifyInterrupt false ∨ (∃ f, i = .requestTransmit f false) ∨ ∃ resp al tm, i = .busComplete resp false al tm) →
      exec i s = .next t → t.out = s.out ++ events → commandsOf events ≠ [] →
      ∃ c, t.ctl = .stalled c ∧ s.ctl ≠ .stalled c)
    ∧ ∀ (i : Instr) (s t : State) (c : ChainCmd), Inv s → exec i s = .next t → t.ctl = .stalled c → s.ctl ≠ .stalled c →
      t.outstanding = none ∧ t.busy = true ∧
        ∃ events cmd, t.out = s.out ++ events ++ [.busCmd cmd, .logSubmitFail c] ∧ command c t = some cmd

/-- Rule R218: the chain's failures are not reported to the host: while Running no instruction but Stop sends the host anything
other than the log of a refused submission. -/
def Obligations.ChainFailuresStayInTheTrace : Prop :=
  ∀ (i : Instr) (s t : State), s.ctl.running = true → i ≠ .stop → exec i s = .next t →
    ∃ events, t.out = s.out ++ events ∧ ∀ e ∈ events, e.receiver = .host → ∃ c, e = .logSubmitFail c

/-! ### The fault -/

/-- Rule R220: in `Fault(code)` every stimulus with a step has no effect, except that RequestTransmit is rejected (D45, the
spec's decision), and no instruction leaves the state. -/
def Obligations.FaultIsSticky : Prop :=
  ∀ (s : State) (code : FaultCode), s.ctl = .fault code →
    (∀ (i : Instr) (t : State), exec i s = .next t → t.ctl = .fault code)
      ∧ (∀ resp a b c t, exec (.busComplete resp a b c) s ≠ .next t)
      ∧ (∀ a, exec (.notifyInterrupt a) s = .next s) ∧ (∀ a, exec (.probe a) s = .next s)
      ∧ (∀ m a, exec (.start m a) s = .next s) ∧ exec .stop s = .next s
      ∧ (∀ f a, exec (.requestTransmit f a) s = .next
          { s with out := s.out ++ [.txReply (if f.wellFormed then .rejectedNotRunning else .rejectedInvalid)] })

/-- Rules R221, R247: the fault arises in one way: at a quiescent point with `transmitPending` set and an empty slot. It emits
nothing and leaves nothing outstanding. -/
def Obligations.FaultComesFromAnEmptyLoadOnly : Prop :=
  ∀ (i : Instr) (s t : State) (code : FaultCode), exec i s = .next t → t.ctl = .fault code → s.ctl ≠ .fault code →
    (∃ resp a b c, i = .busComplete resp a b c ∧ respByte resp 2 = 0x00) ∧ s.ctl = .wait .readFlags
      ∧ s.transmitPending = true ∧ s.outgoingFrame = none ∧ t.outstanding = none ∧ t.out = s.out

/-! ### The codec -/

/-- Rules R160 to R163, on naturals (R15): what the decoder computes from the identifier and length bytes. The bound below 2^29
of R161 the spec derives from its formula. -/
def Obligations.DecodedIdentifierAndFlags : Prop :=
  ∀ (resp : List Byte) (b0 b1 b2 b3 b4 b5 : Byte) (rest : List Byte), resp = b0 :: b1 :: b2 :: b3 :: b4 :: b5 :: rest →
    (decodeRx resp).ext = b2.getLsbD 3
      ∧ (b2.getLsbD 3 = true →
          (decodeRx resp).id.toNat
              = b1.toNat <<< 21 ||| (b2.toNat &&& 0xE0) <<< 13 ||| (b2.toNat &&& 0x03) <<< 16 ||| b3.toNat <<< 8 ||| b4.toNat
            ∧ (decodeRx resp).id.toNat < 2 ^ 29 ∧ (decodeRx resp).rtr = b5.getLsbD 6)
      ∧ (b2.getLsbD 3 = false →
          (decodeRx resp).id.toNat = b1.toNat <<< 3 ||| b2.toNat >>> 5
            ∧ (decodeRx resp).id.toNat < 2 ^ 11 ∧ (decodeRx resp).rtr = b2.getLsbD 4)

/-- Rule R164: the length and the data bytes. (A remote frame's kept length is the spec's decision D13.) -/
def Obligations.DecodedLengthAndData : Prop :=
  ∀ resp : List Byte, resp.length = 14 →
    (decodeRx resp).len = min ((respByte resp 5).toNat % 16) 8
      ∧ ∀ i : Fin 8, (decodeRx resp).data[i]
          = if (decodeRx resp).rtr = true ∨ (decodeRx resp).len ≤ i.val then 0 else respByte resp (6 + i.val)

/-- Rule R165: every response decodes to a well-formed frame, so no response is rejected. -/
def Obligations.DecodedFramesAreWellFormed : Prop :=
  ∀ resp : List Byte, (decodeRx resp).wellFormed = true

/-- Rules R167 to R170, on naturals: the LOAD_TX_BUFFER command of a well-formed frame. (Where a standard frame's remote flag
goes is the parameter of the spec's decision D12.) -/
def Obligations.EncodedFrameBytes : Prop :=
  ∀ (f : Frame) (inDlc : Bool), f.wellFormed = true →
    ∃ h1 h2 h3 h4 h5 : Byte, encodeTx inDlc f = 0x40 :: h1 :: h2 :: h3 :: h4 :: h5 :: f.data.toList.take f.len
      ∧ (encodeTx inDlc f).length = 6 + f.len
      ∧ (f.ext = true →
          h1.toNat = f.id.toNat / 2 ^ 21 % 256
            ∧ h2.toNat = f.id.toNat / 2 ^ 18 % 8 * 32 + 8 + f.id.toNat / 2 ^ 16 % 4
            ∧ h3.toNat = f.id.toNat / 2 ^ 8 % 256 ∧ h4.toNat = f.id.toNat % 256
            ∧ h5.toNat = f.len + (if f.rtr then 64 else 0))
      ∧ (f.ext = false →
          h1.toNat = f.id.toNat / 2 ^ 3 % 256
            ∧ h2.toNat = f.id.toNat % 8 * 32 + (if f.rtr = true ∧ inDlc = false then 16 else 0)
            ∧ h3 = 0x00 ∧ h4 = 0x00
            ∧ h5.toNat = f.len + (if f.rtr = true ∧ inDlc = true then 64 else 0))

/-- Rule R171: encoding a frame and decoding the equivalent receive-buffer bytes yields the frame, for the default parameter;
with the parameter true it fails for every standard remote frame. The spec derives this from R161 to R170; it rests on its
decisions D12 (the standard remote flag), D13 (a remote frame's length) and D14 (well-formedness), assumption 22, PRESUMED. -/
def Obligations.CodecRoundTrip : Prop :=
  (∀ f : Frame, f.wellFormed = true → decodeRx (rxOf (encodeTx false f)) = f)
    ∧ ∀ f : Frame, f.wellFormed = true → f.ext = false → f.rtr = true → decodeRx (rxOf (encodeTx true f)) ≠ f

/-! ### Startup and stop -/

/-- Rule R180: Probe in `Unprobed` submits RESET; elsewhere it has no effect. (The RESET first is the spec's decision D23.) -/
def Obligations.ProbeEffect : Prop :=
  ∀ (s : State) (ok : Bool),
    (s.ctl = .unprobed → exec (.probe ok) s = .next (probeSubmitted .pReset [0xC0] ok s))
      ∧ (s.ctl ≠ .unprobed → exec (.probe ok) s = .next s)

/-- Rules R182, R183, R213: the completions of the probe steps. (Registers, masks and order are the spec's decision D23.) -/
def Obligations.ProbeCompletions : Prop :=
  ∀ (s : State) (ok al tm : Bool),
    (∀ r0, AwaitsInit .pReset [r0] s → exec (.busComplete [r0] ok al tm) s = .next
        (probeSubmitted .pReadId [0x03, 0x0E, 0x00, 0x00] ok { s with outstanding := none }))
      ∧ (∀ r0 r1 stat ctrl, AwaitsInit .pReadId [r0, r1, stat, ctrl] s →
        exec (.busComplete [r0, r1, stat, ctrl] ok al tm) s = .next
          (if stat &&& s.cfg.detStatMask = s.cfg.detStatExp ∧ ctrl &&& s.cfg.detCtrlMask = s.cfg.detCtrlExp then
            { s with outstanding := none, ctl := .off, out := s.out ++ [.initResult .probeOk] }
          else { s with outstanding := none, ctl := .probeFailed, out := s.out ++ [.initResult .detectFail] }))

/-- Rule R184: `ProbeFailed` is terminal; every stimulus with a step has no effect there, except that RequestTransmit is
rejected. That BusComplete has no step is R141 (D39; the stop is assumption 15, DEDUCED); the two replies are R103's (D16 and D22,
the spec's decisions, assumption 22). -/
def Obligations.ProbeFailedIsTerminal : Prop :=
  ∀ s : State, s.ctl = .probeFailed →
    (∀ (i : Instr) (t : State), exec i s = .next t → t.ctl = .probeFailed)
      ∧ (∀ resp a b c t, exec (.busComplete resp a b c) s ≠ .next t)
      ∧ (∀ a, exec (.notifyInterrupt a) s = .next s) ∧ (∀ a, exec (.probe a) s = .next s)
      ∧ (∀ m a, exec (.start m a) s = .next s) ∧ exec .stop s = .next s
      ∧ (∀ f a, exec (.requestTransmit f a) s = .next
          { s with out := s.out ++ [.txReply (if f.wellFormed then .rejectedNotRunning else .rejectedInvalid)] })

/-- Rule R186: Start in `Off` records the mode, enables the transceiver and submits RESET; elsewhere it has no effect. (The
transceiver output is the spec's decision D26.) -/
def Obligations.StartEffect : Prop :=
  ∀ (s : State) (m : Mode) (ok : Bool),
    (s.ctl = .off → exec (.start m ok) s = .next
        (startSubmitted .sReset [0xC0] ok { s with mode := m, out := s.out ++ [.transceiverEnable] }))
      ∧ (s.ctl ≠ .off → exec (.start m ok) s = .next s)

/-- Rules R187 to R191: each completed start step submits the next, in the fixed order, with the parameters' bytes. (The commands
are the spec's decision D24.) -/
def Obligations.StartStepCompletions : Prop :=
  ∀ (s : State) (resp : List Byte) (ok al tm : Bool),
    let next (q : InitStep) (cmd : List Byte) : Prop :=
      exec (.busComplete resp ok al tm) s = .next (startSubmitted q cmd ok { s with outstanding := none })
    (AwaitsInit .sReset resp s → next .sBitTiming [0x02, 0x28, s.cfg.cnf0, s.cfg.cnf1, s.cfg.cnf2])
      ∧ (AwaitsInit .sBitTiming resp s → next .sIntEnable [0x02, s.cfg.inteAddr, s.cfg.inteValue])
      ∧ (AwaitsInit .sIntEnable resp s → next .sRxb0Ctrl [0x02, 0x60, s.cfg.rxb0ctrlValue])
      ∧ (AwaitsInit .sRxb0Ctrl resp s → next .sRxb1Ctrl [0x02, 0x70, s.cfg.rxb1ctrlValue])
      ∧ (AwaitsInit .sRxb1Ctrl resp s → next .sMode [0x02, 0x0F, modeCode s.cfg s.mode])
      ∧ (AwaitsInit .sMode resp s → next .sPollMode [0x03, 0x0E, 0x00])

/-- Rules R192, R193, R214: the mode poll enters `Idle`, times out to `Off`, or polls again. (The timeout draw is the spec's
decision D25.) -/
def Obligations.PollModeCompletion : Prop :=
  ∀ (s : State) (r0 r1 stat : Byte) (ok al tm : Bool), AwaitsInit .sPollMode [r0, r1, stat] s →
    (stat &&& s.cfg.opmodeMask = modeCode s.cfg s.mode &&& s.cfg.opmodeMask →
        exec (.busComplete [r0, r1, stat] ok al tm) s = .next
          { s with outstanding := none, ctl := .idle, out := s.out ++ [.initResult .startOk] })
      ∧ (stat &&& s.cfg.opmodeMask ≠ modeCode s.cfg s.mode &&& s.cfg.opmodeMask →
        exec (.busComplete [r0, r1, stat] ok al tm) s = .next
          (if tm = true then
            { s with outstanding := none, ctl := .off, out := s.out ++ [.transceiverDisable, .initResult .modeTimeout] }
          else startSubmitted .sPollMode [0x03, 0x0E, 0x00] ok { s with outstanding := none }))

/-- Rules R186 to R194, R197, R242: from any `Off`, Start and seven completions whose last reports the mode bring the block to
`Idle` by one and the same sequence of commands, changing nothing of the session beside `mode`, `ctl` and the trace. -/
def Obligations.StartSequenceReachesIdle : Prop :=
  ∀ (s : State) (m : Mode) (r0 r1 r2 r3 r4 r5 r6 r7 r8 r9 r10 r11 r12 r13 r14 r15 r16 r17 r18 r19 stat : Byte),
    s.ctl = .off → stat &&& s.cfg.opmodeMask = modeCode s.cfg m &&& s.cfg.opmodeMask →
    execAll
      [.start m true, .busComplete [r0] true true false, .busComplete [r1, r2, r3, r4, r5] true true false,
       .busComplete [r6, r7, r8] true true false, .busComplete [r9, r10, r11] true true false,
       .busComplete [r12, r13, r14] true true false, .busComplete [r15, r16, r17] true true false,
       .busComplete [r18, r19, stat] true true false] s
      = some { s with
          mode := m, ctl := .idle, outstanding := none,
          out := s.out ++
            [.transceiverEnable, .busCmd [0xC0], .busCmd [0x02, 0x28, s.cfg.cnf0, s.cfg.cnf1, s.cfg.cnf2],
             .busCmd [0x02, s.cfg.inteAddr, s.cfg.inteValue], .busCmd [0x02, 0x60, s.cfg.rxb0ctrlValue],
             .busCmd [0x02, 0x70, s.cfg.rxb1ctrlValue], .busCmd [0x02, 0x0F, modeCode s.cfg m],
             .busCmd [0x03, 0x0E, 0x00], .initResult .startOk] }

/-- Rules R195, R196: Stop in `Idle` and `Stalled(_)` releases the slot, clears the gate flags and goes to `Off`, keeping the
snapshot, the counters and the mode; it has no effect in the other states without a command outstanding. (D26, D27, D31: the
spec's decisions. LegalStimuliComplete states where it has no step.) -/
def Obligations.StopEffect : Prop :=
  ∀ (s : State),
    (∀ f, s.ctl.running = true → s.ctl.awaiting = false → s.outgoingFrame = some f → exec .stop s = .next
        { s with busy := false, interruptPending := false, transmitPending := false, outgoingFrame := none,
                 outstanding := none, ctl := .off, out := s.out ++ [.txReleased f, .transceiverDisable] })
      ∧ (s.ctl.running = true → s.ctl.awaiting = false → s.outgoingFrame = none → exec .stop s = .next
        { s with busy := false, interruptPending := false, transmitPending := false,
                 outstanding := none, ctl := .off, out := s.out ++ [.transceiverDisable] })
      ∧ (s.ctl.running = false → s.ctl.awaiting = false → exec .stop s = .next s)

/-! ### The chip's side of the bus commands -/

/-- Rules R60, R75 (general knowledge in the spec, PRESUMED): WRITE completes and changes the chip alone; inside the address
space byte k of the data is what register `addr + k` then holds (of the error-flag register, R134, the overflow bits only),
every other register, the buffers and the transmissions being as before. Past the top the registers reached are open. -/
def Obligations.WriteChangesTheRegisters : Prop :=
  ∀ (s : State) (addr : Byte) (data : List Byte),
    ∃ t, exec (.write addr data) s = .next t ∧ t = { s with chip := t.chip }
      ∧ t.chip.response.length = data.length + 2
      ∧ t.chip.tx = s.chip.tx ∧ t.chip.rx = s.chip.rx ∧ t.chip.sending = s.chip.sending
      ∧ (addr.toNat + data.length ≤ 256 →
        (∀ (k : Nat) (d : Byte), data[k]? = some d → addr.toNat + k ≠ 0x2D →
            t.chip.reg (BitVec.ofNat 8 (addr.toNat + k)) = d)
          ∧ (∀ (k : Nat) (d : Byte), data[k]? = some d → addr.toNat + k = 0x2D → ∀ b : Fin 8,
            (t.chip.reg 0x2D).getLsbD b
              = if b = s.cfg.rx0ovrBit ∨ b = s.cfg.rx1ovrBit then d.getLsbD b else (s.chip.reg 0x2D).getLsbD b)
          ∧ (∀ a : Byte, a.toNat < addr.toNat ∨ addr.toNat + data.length ≤ a.toNat → t.chip.reg a = s.chip.reg a))

/-- Rules R60, R74 (general knowledge in the spec, PRESUMED): READ completes, response byte k + 2 is register `addr + k`, and
nothing else of the machine changes. -/
def Obligations.ReadReturnsTheRegisters : Prop :=
  ∀ (s : State) (addr : Byte) (clock : List Byte),
    ∃ t, exec (.read addr clock) s = .next t
      ∧ t = { s with chip := { s.chip with response := t.chip.response, performed := t.chip.performed } }
      ∧ t.chip.response.length = clock.length + 2
      ∧ ∀ k, k < clock.length → addr.toNat + k < 256 →
          t.chip.response[k + 2]? = some (s.chip.reg (BitVec.ofNat 8 (addr.toNat + k)))

/-- Rule R61 (general knowledge in the spec, PRESUMED), R134: BIT_MODIFY completes and changes exactly the bits of the mask at
the address, of the error-flag register the overflow bits among them only. -/
def Obligations.BitModifyChangesTheMaskedBits : Prop :=
  ∀ (s : State) (addr mask data : Byte),
    ∃ t, exec (.bitModify addr mask data) s = .next t ∧ t = { s with chip := t.chip }
      ∧ t.chip.response.length = 4
      ∧ t.chip.tx = s.chip.tx ∧ t.chip.rx = s.chip.rx ∧ t.chip.sending = s.chip.sending
      ∧ (∀ b : Fin 8, (t.chip.reg addr).getLsbD b
          = if mask.getLsbD b = true ∧ (addr = 0x2D → b = s.cfg.rx0ovrBit ∨ b = s.cfg.rx1ovrBit) then data.getLsbD b
            else (s.chip.reg addr).getLsbD b)
      ∧ ∀ a : Byte, a ≠ addr → t.chip.reg a = s.chip.reg a

/-- LOAD_TX_BUFFER(n) completes and changes buffer n alone; unless that buffer is pending transmission (R68; while it is, the
contents are open: assumption 9), it then holds the header and the data, of which up to 8 bytes have a place (R77, R81); offered
more, the data part is open (assumption 23). R77 gives the format only; that the chip's buffer then holds these bytes is
assumption 6, PRESUMED. -/
def Obligations.LoadTxBufferFillsTheBuffer : Prop :=
  ∀ (s : State) (h : Header) (data : List Byte) (n : Fin 3) (i : Instr),
    (n = 0 ∧ i = .loadTxBuffer0 h data ∨ n = 1 ∧ i = .loadTxBuffer1 h data ∨ n = 2 ∧ i = .loadTxBuffer2 h data) →
    ∃ t, exec i s = .next t
      ∧ t = { s with chip := { s.chip with tx := t.chip.tx, response := t.chip.response, performed := t.chip.performed } }
      ∧ t.chip.response.length = 6 + data.length
      ∧ (∀ m : Fin 3, m ≠ n → t.chip.tx[m] = s.chip.tx[m])
      ∧ ((∀ job ∈ s.chip.sending, job.1 ≠ n) →
        (data.length ≤ 8 → t.chip.tx[n] = [h.h1, h.h2, h.h3, h.h4, h.h5] ++ data)
          ∧ (8 < data.length → ∃ rest, t.chip.tx[n] = [h.h1, h.h2, h.h3, h.h4, h.h5] ++ rest))

/-- Rules R63, R68, R78 (R63, R68: general knowledge in the spec, PRESUMED): REQUEST_TO_SEND(n) completes, and each starts a
transmission of what buffer n holds; nothing else changes. The list of transmissions is the model's (assumption 10). -/
def Obligations.RequestToSendStartsATransmission : Prop :=
  ∀ (s : State) (n : Fin 3) (i : Instr),
    (n = 0 ∧ i = .requestToSend0 ∨ n = 1 ∧ i = .requestToSend1 ∨ n = 2 ∧ i = .requestToSend2) →
    ∃ t, exec i s = .next t ∧ t.chip.response.length = 1
      ∧ t = { s with chip := { s.chip with sending := s.chip.sending ++ [(n, s.chip.tx[n])],
                                           response := t.chip.response, performed := t.chip.performed } }

/-- Rules R62, R79, R80 (R62: general knowledge in the spec, PRESUMED): READ_RX_BUFFER(n) completes with the 13 bytes of buffer n
after the byte clocked with the opcode, and clears the buffer's flag; nothing else changes. -/
def Obligations.ReadRxBufferReturnsTheBuffer : Prop :=
  ∀ (s : State) (clock : List Byte) (n : Fin 2) (i : Instr),
    (n = 0 ∧ i = .readRxBuffer0 clock ∨ n = 1 ∧ i = .readRxBuffer1 clock) →
    ∃ t, exec i s = .next t ∧ t = { s with chip := t.chip }
      ∧ (∃ first, t.chip.response = first :: s.chip.rx[n].toList)
      ∧ t.chip.tx = s.chip.tx ∧ t.chip.rx = s.chip.rx ∧ t.chip.sending = s.chip.sending
      ∧ (∀ b : Fin 8, (t.chip.reg 0x2C).getLsbD b
          = ((s.chip.reg 0x2C).getLsbD b && decide (b ≠ if n = 0 then s.cfg.rx0ifBit else s.cfg.rx1ifBit)))
      ∧ ∀ a : Byte, a ≠ 0x2C → t.chip.reg a = s.chip.reg a

/-- Rules R39, R63: the chip's own events. A frame sent sets the buffer's flag in 0x2C (R63, general knowledge in the spec,
PRESUMED) and ends its oldest transmission, if one runs; a frame received fills the buffer and sets its flag (R39; that a
reception sets it is DEDUCED, assumption 12); a register change is that register's. Nothing else of the machine changes: no other
bit of 0x2C, no other register, buffer or transmission. -/
def Obligations.ChipEventsRaiseTheirFlags : Prop :=
  ∀ (s : State) (later : List Input),
    (∀ n : Fin 3, ∃ t, step { s with inbox := .chipEvent (.frameSent n) :: later } = .next t
        ∧ t = { s with inbox := later, chip := { s.chip with regs := t.chip.regs, sending := t.chip.sending } }
        ∧ (∀ b : Fin 8, (t.chip.reg 0x2C).getLsbD b
          = ((s.chip.reg 0x2C).getLsbD b
            || decide (b = if n = 0 then s.cfg.tx0ifBit else if n = 1 then s.cfg.tx1ifBit else s.cfg.tx2ifBit)))
        ∧ (∀ a : Byte, a ≠ 0x2C → t.chip.reg a = s.chip.reg a)
        ∧ ((∀ job ∈ s.chip.sending, job.1 ≠ n) → t.chip.sending = s.chip.sending)
        ∧ ∀ (before after : List (Fin 3 × List Byte)) (bytes : List Byte),
            s.chip.sending = before ++ (n, bytes) :: after → (∀ job ∈ before, job.1 ≠ n) →
            t.chip.sending = before ++ after)
      ∧ (∀ (n : Fin 2) (bytes : Vector Byte 13),
        ∃ t, step { s with inbox := .chipEvent (.frameReceived n bytes) :: later } = .next t
          ∧ t = { s with inbox := later, chip := { s.chip with regs := t.chip.regs, rx := t.chip.rx } }
          ∧ t.chip.rx[n] = bytes ∧ (∀ m : Fin 2, m ≠ n → t.chip.rx[m] = s.chip.rx[m])
          ∧ (∀ b : Fin 8, (t.chip.reg 0x2C).getLsbD b
            = ((s.chip.reg 0x2C).getLsbD b || decide (b = if n = 0 then s.cfg.rx0ifBit else s.cfg.rx1ifBit)))
          ∧ ∀ a : Byte, a ≠ 0x2C → t.chip.reg a = s.chip.reg a)
      ∧ (∀ addr value : Byte,
        ∃ t, step { s with inbox := .chipEvent (.registerChanged addr value) :: later } = .next t
          ∧ t = { s with inbox := later, chip := { s.chip with regs := t.chip.regs } } ∧ t.chip.reg addr = value
          ∧ ∀ a : Byte, a ≠ addr → t.chip.reg a = s.chip.reg a)

/-- Rule R241: the RESET command resets the chip only. RESET completes and the block's session is as before. That the chip then
runs no transmission and lists no register is DEDUCED (assumption 11). -/
def Obligations.ResetCommandLeavesTheBlock : Prop :=
  ∀ s : State, ∃ t, exec .reset s = .next t ∧ t = { s with chip := t.chip }
    ∧ t.chip.sending = [] ∧ t.chip.regs = [] ∧ t.chip.response.length = 1
end

