-- ==== Sys2Proof/Laws/State.lean ====
section
/-! SUPPORT. One lemma per field per named update of the state, all by rfl, so that no proof unfolds a record update. -/

namespace Sys2Proof.Machine

variable (s : State)

/-! ### `emit` -/

@[simp] theorem emit_busy (e : OutEvent) : (emit e s).busy = s.busy := rfl
@[simp] theorem emit_interruptPending (e : OutEvent) : (emit e s).interruptPending = s.interruptPending := rfl
@[simp] theorem emit_transmitPending (e : OutEvent) : (emit e s).transmitPending = s.transmitPending := rfl
@[simp] theorem emit_outgoingFrame (e : OutEvent) : (emit e s).outgoingFrame = s.outgoingFrame := rfl
@[simp] theorem emit_statusBits (e : OutEvent) : (emit e s).statusBits = s.statusBits := rfl
@[simp] theorem emit_errorFlags (e : OutEvent) : (emit e s).errorFlags = s.errorFlags := rfl
@[simp] theorem emit_overflowCount (e : OutEvent) : (emit e s).overflowCount = s.overflowCount := rfl
@[simp] theorem emit_rxDropCount (e : OutEvent) : (emit e s).rxDropCount = s.rxDropCount := rfl
@[simp] theorem emit_ctl (e : OutEvent) : (emit e s).ctl = s.ctl := rfl
@[simp] theorem emit_outstanding (e : OutEvent) : (emit e s).outstanding = s.outstanding := rfl
@[simp] theorem emit_mode (e : OutEvent) : (emit e s).mode = s.mode := rfl
@[simp] theorem emit_out (e : OutEvent) : (emit e s).out = s.out ++ [e] := rfl
@[simp] theorem emit_cfg (e : OutEvent) : (emit e s).cfg = s.cfg := rfl
@[simp] theorem emit_chip (e : OutEvent) : (emit e s).chip = s.chip := rfl
@[simp] theorem emit_inbox (e : OutEvent) : (emit e s).inbox = s.inbox := rfl

/-! ### `onChip` -/

@[simp] theorem onChip_busy (f : Chip → Chip) : (s.onChip f).busy = s.busy := rfl
@[simp] theorem onChip_interruptPending (f : Chip → Chip) : (s.onChip f).interruptPending = s.interruptPending := rfl
@[simp] theorem onChip_transmitPending (f : Chip → Chip) : (s.onChip f).transmitPending = s.transmitPending := rfl
@[simp] theorem onChip_outgoingFrame (f : Chip → Chip) : (s.onChip f).outgoingFrame = s.outgoingFrame := rfl
@[simp] theorem onChip_statusBits (f : Chip → Chip) : (s.onChip f).statusBits = s.statusBits := rfl
@[simp] theorem onChip_errorFlags (f : Chip → Chip) : (s.onChip f).errorFlags = s.errorFlags := rfl
@[simp] theorem onChip_overflowCount (f : Chip → Chip) : (s.onChip f).overflowCount = s.overflowCount := rfl
@[simp] theorem onChip_rxDropCount (f : Chip → Chip) : (s.onChip f).rxDropCount = s.rxDropCount := rfl
@[simp] theorem onChip_ctl (f : Chip → Chip) : (s.onChip f).ctl = s.ctl := rfl
@[simp] theorem onChip_outstanding (f : Chip → Chip) : (s.onChip f).outstanding = s.outstanding := rfl
@[simp] theorem onChip_mode (f : Chip → Chip) : (s.onChip f).mode = s.mode := rfl
@[simp] theorem onChip_out (f : Chip → Chip) : (s.onChip f).out = s.out := rfl
@[simp] theorem onChip_cfg (f : Chip → Chip) : (s.onChip f).cfg = s.cfg := rfl
@[simp] theorem onChip_chip (f : Chip → Chip) : (s.onChip f).chip = f s.chip := rfl
@[simp] theorem onChip_inbox (f : Chip → Chip) : (s.onChip f).inbox = s.inbox := rfl

/-! ### `withSnapshot` -/

variable (sb ef : Byte)

@[simp] theorem withSnapshot_busy : (s.withSnapshot sb ef).busy = s.busy := rfl
@[simp] theorem withSnapshot_interruptPending : (s.withSnapshot sb ef).interruptPending = s.interruptPending := rfl
@[simp] theorem withSnapshot_transmitPending : (s.withSnapshot sb ef).transmitPending = s.transmitPending := rfl
@[simp] theorem withSnapshot_outgoingFrame : (s.withSnapshot sb ef).outgoingFrame = s.outgoingFrame := rfl
@[simp] theorem withSnapshot_statusBits : (s.withSnapshot sb ef).statusBits = sb := rfl
@[simp] theorem withSnapshot_errorFlags : (s.withSnapshot sb ef).errorFlags = ef := rfl
@[simp] theorem withSnapshot_overflowCount : (s.withSnapshot sb ef).overflowCount = s.overflowCount := rfl
@[simp] theorem withSnapshot_rxDropCount : (s.withSnapshot sb ef).rxDropCount = s.rxDropCount := rfl
@[simp] theorem withSnapshot_ctl : (s.withSnapshot sb ef).ctl = s.ctl := rfl
@[simp] theorem withSnapshot_outstanding : (s.withSnapshot sb ef).outstanding = s.outstanding := rfl
@[simp] theorem withSnapshot_mode : (s.withSnapshot sb ef).mode = s.mode := rfl
@[simp] theorem withSnapshot_out : (s.withSnapshot sb ef).out = s.out := rfl
@[simp] theorem withSnapshot_cfg : (s.withSnapshot sb ef).cfg = s.cfg := rfl
@[simp] theorem withSnapshot_chip : (s.withSnapshot sb ef).chip = s.chip := rfl
@[simp] theorem withSnapshot_inbox : (s.withSnapshot sb ef).inbox = s.inbox := rfl

/-! ### Fields of the chip under its named updates -/

namespace Chip

variable (c : Chip)

@[simp] theorem setReg_tx (a v : Byte) : (c.setReg a v).tx = c.tx := rfl
@[simp] theorem setReg_rx (a v : Byte) : (c.setReg a v).rx = c.rx := rfl
@[simp] theorem setReg_sending (a v : Byte) : (c.setReg a v).sending = c.sending := rfl
@[simp] theorem setReg_response (a v : Byte) : (c.setReg a v).response = c.response := rfl
@[simp] theorem setReg_epoch (a v : Byte) : (c.setReg a v).epoch = c.epoch := rfl
@[simp] theorem setReg_performed (a v : Byte) : (c.setReg a v).performed = c.performed := rfl
@[simp] theorem respond_regs (r : List Byte) : (c.respond r).regs = c.regs := rfl
@[simp] theorem respond_tx (r : List Byte) : (c.respond r).tx = c.tx := rfl
@[simp] theorem respond_rx (r : List Byte) : (c.respond r).rx = c.rx := rfl
@[simp] theorem respond_sending (r : List Byte) : (c.respond r).sending = c.sending := rfl
@[simp] theorem respond_response (r : List Byte) : (c.respond r).response = r := rfl
@[simp] theorem respond_epoch (r : List Byte) : (c.respond r).epoch = c.epoch := rfl
@[simp] theorem respond_performed (r : List Byte) : (c.respond r).performed = c.performed + 1 := rfl

end Chip

end Sys2Proof.Machine
end

