-- ==== Sys2Proof/Laws/Memory.lean ====
section
/-! SUPPORT. The laws of the register memory: read after write, and the canonical form is kept by every operation. -/

namespace Sys2Proof.Machine

namespace Memory

theorem read_write_same (m : Memory) (a : Nat) (v : Byte) : (m.write a v).read a = some v := by
  induction m with
  | nil => simp [write, read]
  | cons cell rest ih =>
    obtain ⟨b, w⟩ := cell
    unfold write
    split
    · simp [read]
    · split
      · simp [read]
      · simp [read, *]

theorem read_write_other (m : Memory) {a b : Nat} (v : Byte) (h : b ≠ a) : (m.write a v).read b = m.read b := by
  induction m with
  | nil => simp [write, read, h]
  | cons cell rest ih =>
    obtain ⟨c, w⟩ := cell
    unfold write
    split
    · simp [read, h]
    · split
      · subst_vars; simp [read, h]
      · simp [read, ih]

/-- The canonical form of a list with a first cell, in terms of the cell after it. -/
theorem wf_cons (b : Nat) (w : Byte) (rest : Memory) :
    wf ((b, w) :: rest) = true ↔ b < 256 ∧ (∀ c v more, rest = (c, v) :: more → b < c) ∧ wf rest = true := by
  induction rest generalizing b w with
  | nil => simp [wf]
  | cons cell more ih =>
    obtain ⟨c, v⟩ := cell
    rw [wf]
    simp only [Bool.and_eq_true, decide_eq_true_eq]
    constructor
    · rintro ⟨hlt, h⟩
      have hc := ((ih c v).mp h).1
      exact ⟨by omega, by rintro _ _ _ ⟨⟩; exact hlt, h⟩
    · rintro ⟨-, hlt, h⟩
      exact ⟨hlt c v more rfl, h⟩

theorem wf_nil : wf [] = true := rfl

/-- Writing inside the address space keeps the canonical form. -/
theorem wf_write (m : Memory) (a : Nat) (v : Byte) (ha : a < 256) (h : m.wf = true) : (m.write a v).wf = true := by
  induction m with
  | nil => simpa [write, wf] using ha
  | cons cell rest ih =>
    obtain ⟨b, w⟩ := cell
    obtain ⟨hb, hlt, hrest⟩ := (wf_cons b w rest).mp h
    unfold write
    split
    · exact (wf_cons _ _ _).mpr ⟨ha, by rintro _ _ _ ⟨⟩; assumption, h⟩
    · split
      · subst_vars
        exact (wf_cons _ _ _).mpr ⟨hb, hlt, hrest⟩
      · refine (wf_cons _ _ _).mpr ⟨hb, ?_, ih hrest⟩
        intro c x more heq
        cases rest with
        | nil => simp only [write, List.cons.injEq, Prod.mk.injEq] at heq; omega
        | cons cell2 rest2 =>
          obtain ⟨d, y⟩ := cell2
          have := hlt d y rest2 rfl
          unfold write at heq
          split at heq
          · simp only [List.cons.injEq, Prod.mk.injEq] at heq; omega
          · split at heq <;> simp only [List.cons.injEq, Prod.mk.injEq] at heq <;> omega

end Memory

namespace Chip

variable (c : Chip)

theorem reg_setReg_same (a v : Byte) : (c.setReg a v).reg a = v := by
  simp [reg, setReg, Memory.read_write_same]

theorem reg_setReg_other {a b : Byte} (v : Byte) (h : b ≠ a) : (c.setReg a v).reg b = c.reg b := by
  have : b.toNat ≠ a.toNat := fun e => h (BitVec.eq_of_toNat_eq e)
  simp [reg, setReg, Memory.read_write_other _ _ this]

@[simp] theorem reg_respond (r : List Byte) (a : Byte) : (c.respond r).reg a = c.reg a := rfl

theorem setReg_wf (a v : Byte) (h : c.regs.wf = true) : (c.setReg a v).regs.wf = true :=
  Memory.wf_write _ _ _ a.isLt h

theorem softwareWrite_wf (cfg : Config) (a v : Byte) (h : c.regs.wf = true) : (c.softwareWrite cfg a v).regs.wf = true := by
  unfold softwareWrite
  split <;> exact setReg_wf _ _ _ h

theorem writeFrom_wf (cfg : Config) (a : Byte) (data : List Byte) :
    ∀ (c : Chip) (k : Nat), c.regs.wf = true → (c.writeFrom cfg a k data).regs.wf = true := by
  induction data with
  | nil => intro c k h; exact h
  | cons d rest ih =>
    intro c k h
    refine ih _ _ ?_
    split
    · exact softwareWrite_wf _ _ _ _ h
    · exact h

/-- The chip's own events keep the canonical form. -/
theorem event_wf (cfg : Config) (e : ChipEvent) (h : c.regs.wf = true) : (c.event cfg e).regs.wf = true := by
  cases e <;> exact setReg_wf _ _ _ h

end Chip

end Sys2Proof.Machine
end

