-- ==== Sys2Proof/Laws/Ops.lean ====
section
/-! SUPPORT. What each shared operation can do, said once: submissions as records, and the fields that issuing, delivering and
the startup submissions leave alone. -/

namespace Sys2Proof.Machine

/-! ### Flag tests -/

/-- A test under a single-bit mask is that bit. -/
theorem anySet_bitMask (v : Byte) (b : Fin 8) : anySet v (bitMask b) = v.getLsbD b := by
  have h : bitMask b = BitVec.twoPow 8 b.val := by revert b; decide
  have hne : BitVec.twoPow 8 b.val ≠ 0#8 := by revert b; decide
  rw [anySet, h, BitVec.and_twoPow]
  cases v.getLsbD b.val <;> simp [hne]

/-- Rule R41: the overflow test is either bit. -/
theorem anySet_ovrMask (v : Byte) (c : Config) :
    anySet v (ovrMask c) = (v.getLsbD c.rx0ovrBit || v.getLsbD c.rx1ovrBit) := by
  rw [← anySet_bitMask, ← anySet_bitMask]
  unfold anySet ovrMask
  rw [BitVec.and_or_distrib_left, Bool.eq_iff_iff]
  simp only [bne_iff_ne, Bool.or_eq_true, ne_eq]
  rw [← not_and_or, not_iff_not]
  constructor
  · intro h
    constructor <;> ext i hi <;> have := congrArg (·.getLsbD i) h <;> simp_all
  · rintro ⟨h1, h2⟩
    simp [h1, h2]

/-! ### Submissions -/

theorem submit_eq_submitted (c : ChainCmd) (cmd : List Byte) (ok : Bool) (s : State) :
    submit c cmd ok s = submitted c cmd ok s := by
  cases ok <;> simp [submit, submitted, emit]

theorem issue_of_command {c : ChainCmd} {cmd : List Byte} {s : State} (ok : Bool) (h : command c s = some cmd) :
    issue c ok s = submitted c cmd ok s := by
  simp [issue, h, submit_eq_submitted]

/-- Rule R221: the one case in which issuing raises the fault. -/
theorem issue_of_no_command {c : ChainCmd} {s : State} (ok : Bool) (h : command c s = none) :
    issue c ok s = { s with ctl := .fault .loadNoFrame, outstanding := none } := by
  simp [issue, h, raiseFault]

theorem command_eq_none {c : ChainCmd} {s : State} :
    command c s = none ↔ c = .loadTransmitBuffer ∧ s.outgoingFrame = none := by
  cases c <;> simp [command]

/-- Everything issuing can do: submit the command of `c`, or fault with an empty slot. -/
theorem issue_cases (c : ChainCmd) (ok : Bool) (s : State) :
    (∃ cmd, command c s = some cmd ∧ issue c ok s = submitted c cmd ok s)
      ∨ (c = .loadTransmitBuffer ∧ s.outgoingFrame = none
        ∧ issue c ok s = { s with ctl := .fault .loadNoFrame, outstanding := none }) := by
  cases h : command c s with
  | some cmd => exact .inl ⟨cmd, rfl, issue_of_command ok h⟩
  | none => exact .inr ⟨(command_eq_none.mp h).1, (command_eq_none.mp h).2, issue_of_no_command ok h⟩

section
variable (c : ChainCmd) (cmd : List Byte) (ok : Bool) (s : State)

@[simp] theorem submitted_busy : (submitted c cmd ok s).busy = s.busy := by unfold submitted; split <;> rfl
@[simp] theorem submitted_interruptPending : (submitted c cmd ok s).interruptPending = s.interruptPending := by
  unfold submitted; split <;> rfl
@[simp] theorem submitted_transmitPending : (submitted c cmd ok s).transmitPending = s.transmitPending := by
  unfold submitted; split <;> rfl
@[simp] theorem submitted_outgoingFrame : (submitted c cmd ok s).outgoingFrame = s.outgoingFrame := by
  unfold submitted; split <;> rfl
@[simp] theorem submitted_statusBits : (submitted c cmd ok s).statusBits = s.statusBits := by unfold submitted; split <;> rfl
@[simp] theorem submitted_errorFlags : (submitted c cmd ok s).errorFlags = s.errorFlags := by unfold submitted; split <;> rfl
@[simp] theorem submitted_overflowCount : (submitted c cmd ok s).overflowCount = s.overflowCount := by
  unfold submitted; split <;> rfl
@[simp] theorem submitted_rxDropCount : (submitted c cmd ok s).rxDropCount = s.rxDropCount := by unfold submitted; split <;> rfl
@[simp] theorem submitted_mode : (submitted c cmd ok s).mode = s.mode := by unfold submitted; split <;> rfl
@[simp] theorem submitted_cfg : (submitted c cmd ok s).cfg = s.cfg := by unfold submitted; split <;> rfl
@[simp] theorem submitted_chip : (submitted c cmd ok s).chip = s.chip := by unfold submitted; split <;> rfl
@[simp] theorem submitted_inbox : (submitted c cmd ok s).inbox = s.inbox := by unfold submitted; split <;> rfl

theorem submitted_ctl : (submitted c cmd ok s).ctl = if ok then .wait c else .stalled c := by
  unfold submitted; split <;> rfl
theorem submitted_outstanding : (submitted c cmd ok s).outstanding = if ok then some cmd else none := by
  unfold submitted; split <;> rfl
theorem submitted_out :
    (submitted c cmd ok s).out = s.out ++ .busCmd cmd :: (if ok then [] else [.logSubmitFail c]) := by
  unfold submitted; split <;> rfl

@[simp] theorem issue_busy : (issue c ok s).busy = s.busy := by
  rcases issue_cases c ok s with ⟨_, -, h⟩ | ⟨-, -, h⟩ <;> simp [h]
@[simp] theorem issue_interruptPending : (issue c ok s).interruptPending = s.interruptPending := by
  rcases issue_cases c ok s with ⟨_, -, h⟩ | ⟨-, -, h⟩ <;> simp [h]
@[simp] theorem issue_transmitPending : (issue c ok s).transmitPending = s.transmitPending := by
  rcases issue_cases c ok s with ⟨_, -, h⟩ | ⟨-, -, h⟩ <;> simp [h]
@[simp] theorem issue_outgoingFrame : (issue c ok s).outgoingFrame = s.outgoingFrame := by
  rcases issue_cases c ok s with ⟨_, -, h⟩ | ⟨-, -, h⟩ <;> simp [h]
@[simp] theorem issue_statusBits : (issue c ok s).statusBits = s.statusBits := by
  rcases issue_cases c ok s with ⟨_, -, h⟩ | ⟨-, -, h⟩ <;> simp [h]
@[simp] theorem issue_errorFlags : (issue c ok s).errorFlags = s.errorFlags := by
  rcases issue_cases c ok s with ⟨_, -, h⟩ | ⟨-, -, h⟩ <;> simp [h]
@[simp] theorem issue_overflowCount : (issue c ok s).overflowCount = s.overflowCount := by
  rcases issue_cases c ok s with ⟨_, -, h⟩ | ⟨-, -, h⟩ <;> simp [h]
@[simp] theorem issue_rxDropCount : (issue c ok s).rxDropCount = s.rxDropCount := by
  rcases issue_cases c ok s with ⟨_, -, h⟩ | ⟨-, -, h⟩ <;> simp [h]
@[simp] theorem issue_mode : (issue c ok s).mode = s.mode := by
  rcases issue_cases c ok s with ⟨_, -, h⟩ | ⟨-, -, h⟩ <;> simp [h]
@[simp] theorem issue_cfg : (issue c ok s).cfg = s.cfg := by
  rcases issue_cases c ok s with ⟨_, -, h⟩ | ⟨-, -, h⟩ <;> simp [h]
@[simp] theorem issue_chip : (issue c ok s).chip = s.chip := by
  rcases issue_cases c ok s with ⟨_, -, h⟩ | ⟨-, -, h⟩ <;> simp [h]
@[simp] theorem issue_inbox : (issue c ok s).inbox = s.inbox := by
  rcases issue_cases c ok s with ⟨_, -, h⟩ | ⟨-, -, h⟩ <;> simp [h]

end

/-! ### Startup submissions -/

theorem issueInit_eq_probeSubmitted {q : InitStep} (ok : Bool) (s : State) (h : q.isProbe = true) :
    issueInit q ok s = probeSubmitted q (initCommand q s) ok s := by
  cases ok <;> simp [issueInit, probeSubmitted, initRefused, emit, h]

theorem issueInit_eq_startSubmitted {q : InitStep} (ok : Bool) (s : State) (h : q.isProbe = false) :
    issueInit q ok s = startSubmitted q (initCommand q s) ok s := by
  cases ok <;> simp [issueInit, startSubmitted, initRefused, emit, h]

/-- Everything a startup submission can do: wait for the step's command, or report the refusal. -/
theorem issueInit_cases (q : InitStep) (ok : Bool) (s : State) :
    (ok = true ∧ issueInit q ok s
        = { s with out := s.out ++ [.busCmd (initCommand q s)], outstanding := some (initCommand q s), ctl := .init q })
      ∨ (ok = false ∧ ∃ events c, (c = .probeFailed ∨ c = .off) ∧ commandsOf events = []
        ∧ (∀ e ∈ events, e.command? = none)
        ∧ issueInit q ok s
          = { s with out := s.out ++ .busCmd (initCommand q s) :: events, outstanding := none, ctl := c }) := by
  cases ok with
  | true => exact .inl ⟨rfl, rfl⟩
  | false =>
    refine .inr ⟨rfl, ?_⟩
    cases h : q.isProbe with
    | true =>
      exact ⟨[.initResult .initBusError], .probeFailed, .inl rfl, rfl, by simp [OutEvent.command?],
        by simp [issueInit, initRefused, emit, h]⟩
    | false =>
      exact ⟨[.transceiverDisable, .initResult .initBusError], .off, .inr rfl, rfl, by simp [OutEvent.command?],
        by simp [issueInit, initRefused, emit, h]⟩

/-! ### Delivering a frame (R166) -/

section
variable (al : Bool) (f : Frame) (s : State)

@[simp] theorem deliver_busy : (deliver al f s).busy = s.busy := by unfold deliver; split <;> rfl
@[simp] theorem deliver_interruptPending : (deliver al f s).interruptPending = s.interruptPending := by
  unfold deliver; split <;> rfl
@[simp] theorem deliver_transmitPending : (deliver al f s).transmitPending = s.transmitPending := by
  unfold deliver; split <;> rfl
@[simp] theorem deliver_outgoingFrame : (deliver al f s).outgoingFrame = s.outgoingFrame := by unfold deliver; split <;> rfl
@[simp] theorem deliver_statusBits : (deliver al f s).statusBits = s.statusBits := by unfold deliver; split <;> rfl
@[simp] theorem deliver_errorFlags : (deliver al f s).errorFlags = s.errorFlags := by unfold deliver; split <;> rfl
@[simp] theorem deliver_overflowCount : (deliver al f s).overflowCount = s.overflowCount := by unfold deliver; split <;> rfl
@[simp] theorem deliver_ctl : (deliver al f s).ctl = s.ctl := by unfold deliver; split <;> rfl
@[simp] theorem deliver_outstanding : (deliver al f s).outstanding = s.outstanding := by unfold deliver; split <;> rfl
@[simp] theorem deliver_mode : (deliver al f s).mode = s.mode := by unfold deliver; split <;> rfl
@[simp] theorem deliver_cfg : (deliver al f s).cfg = s.cfg := by unfold deliver; split <;> rfl
@[simp] theorem deliver_chip : (deliver al f s).chip = s.chip := by unfold deliver; split <;> rfl
@[simp] theorem deliver_inbox : (deliver al f s).inbox = s.inbox := by unfold deliver; split <;> rfl

end

/-! ### The quiescent point and the pseudo-state -/

/-- Everything the quiescent point can do (R106). -/
theorem atQuiescentPoint_cases (ok : Bool) (s : State) :
    (s.transmitPending = true
        ∧ atQuiescentPoint ok s = issue .loadTransmitBuffer ok { s with transmitPending := false })
      ∨ (s.transmitPending = false ∧ s.interruptPending = true
        ∧ atQuiescentPoint ok s = issue .readFlags ok { s with interruptPending := false })
      ∨ (s.transmitPending = false ∧ s.interruptPending = false
        ∧ atQuiescentPoint ok s = { s with busy := false, ctl := .idle, outstanding := none }) := by
  unfold atQuiescentPoint
  cases s.transmitPending <;> cases s.interruptPending <;> simp

/-- Everything TransmitOrReadFlags can do (R107); it never faults. -/
theorem transmitOrReadFlags_cases (ok : Bool) (s : State) :
    (∃ f, s.transmitPending = true ∧ s.outgoingFrame = some f
        ∧ transmitOrReadFlags ok s
          = submitted .loadTransmitBuffer (encodeTx s.cfg.txStdRtrInDlc f) ok { s with transmitPending := false })
      ∨ ((s.transmitPending = false ∨ s.outgoingFrame = none)
        ∧ transmitOrReadFlags ok s = submitted .readFlags readFlagsBytes ok s) := by
  unfold transmitOrReadFlags
  cases hp : s.transmitPending <;> cases hf : s.outgoingFrame <;>
    simp [issue, command, submit_eq_submitted, readFlagsBytes, opRead, addrInterruptFlag, Config.fill]

end Sys2Proof.Machine
end

