-- ==== Sys2Proof/Laws/Chip.lean ====
section
/-! SUPPORT. What the chip's operations do to one register and its bits, said once. -/

namespace Sys2Proof.Machine

theorem bitMask_bit (x b : Fin 8) : (bitMask x).getLsbD b = decide (b = x) := by
  revert x b; decide

/-- Rule R11: the bits of `OVR_MASK`. -/
theorem ovrMask_bit (c : Config) (b : Fin 8) :
    (ovrMask c).getLsbD b = (decide (b = c.rx0ovrBit) || decide (b = c.rx1ovrBit)) := by
  rw [ovrMask, BitVec.getLsbD_or, bitMask_bit, bitMask_bit]

namespace Chip

/-- Rule R61, bit by bit. -/
theorem merge_bit (old new m : Byte) (b : Fin 8) :
    (merge old new m).getLsbD b = if m.getLsbD b then new.getLsbD b else old.getLsbD b := by
  unfold merge
  simp only [BitVec.getLsbD_or, BitVec.getLsbD_and, BitVec.getLsbD_not]
  cases m.getLsbD b <;> simp

/-- Rule R134: what a command's write leaves in any register. -/
theorem reg_softwareWrite (cfg : Config) (c : Chip) (a v b : Byte) :
    (c.softwareWrite cfg a v).reg b
      = if b = a then (if a = addrErrorFlag then merge (c.reg a) v (ovrMask cfg) else v) else c.reg b := by
  unfold softwareWrite
  by_cases h : b = a
  · subst h; split <;> simp [reg_setReg_same]
  · split <;> simp [h, reg_setReg_other]

theorem reg_setBits_same (c : Chip) (a m : Byte) : (c.setBits a m).reg a = c.reg a ||| m := reg_setReg_same _ _ _

theorem reg_setBits_other (c : Chip) {a b : Byte} (m : Byte) (h : b ≠ a) : (c.setBits a m).reg b = c.reg b :=
  reg_setReg_other _ _ h

theorem reg_clearBits_same (c : Chip) (a m : Byte) : (c.clearBits a m).reg a = c.reg a &&& ~~~m := reg_setReg_same _ _ _

theorem reg_clearBits_other (c : Chip) {a b : Byte} (m : Byte) (h : b ≠ a) : (c.clearBits a m).reg b = c.reg b :=
  reg_setReg_other _ _ h

/-- Setting the bit of a flag, bit by bit. -/
theorem reg_setBits_bit (c : Chip) (a : Byte) (f b : Fin 8) :
    ((c.setBits a (bitMask f)).reg a).getLsbD b = ((c.reg a).getLsbD b || decide (b = f)) := by
  rw [reg_setBits_same, BitVec.getLsbD_or, bitMask_bit]

@[simp] theorem idleBytes_length (c : Chip) (n : Nat) : (c.idleBytes n).length = n := by simp [idleBytes]

@[simp] theorem softwareWrite_tx (cfg : Config) (c : Chip) (a v : Byte) : (c.softwareWrite cfg a v).tx = c.tx := by
  unfold softwareWrite; split <;> rfl
@[simp] theorem softwareWrite_rx (cfg : Config) (c : Chip) (a v : Byte) : (c.softwareWrite cfg a v).rx = c.rx := by
  unfold softwareWrite; split <;> rfl
@[simp] theorem softwareWrite_sending (cfg : Config) (c : Chip) (a v : Byte) :
    (c.softwareWrite cfg a v).sending = c.sending := by
  unfold softwareWrite; split <;> rfl

/-- No transmission of the buffer runs. -/
theorem pending_eq_false {c : Chip} {n : Fin 3} (h : ∀ job ∈ c.sending, job.1 ≠ n) : c.pending n = false := by
  simpa [pending] using h

/-- Rules R77, R81: up to 8 data bytes are loaded as offered. -/
theorem loadedData_of_le (c : Chip) {data : List Byte} (h : data.length ≤ 8) : c.loadedData data = data := if_pos h

/-- Rules R68, R77: what a load leaves in a buffer that is not pending transmission. -/
theorem load_tx_same {c : Chip} {n : Fin 3} (header : Header) (data : List Byte) (h : c.pending n = false) :
    (c.load n header data).tx[n] = header.bytes ++ c.loadedData data := by
  simp [load, h]

theorem load_tx_other (c : Chip) {n m : Fin 3} (header : Header) (data : List Byte) (h : m ≠ n) :
    (c.load n header data).tx[m] = c.tx[m] := by
  have hne : n.val ≠ m.val := fun e => h (Fin.ext e.symm)
  simp [load, hne]

/-- With no transmission of the buffer, none ends. -/
theorem finish_of_none (n : Fin 3) (jobs : List (Fin 3 × List Byte)) (h : ∀ job ∈ jobs, job.1 ≠ n) : finish n jobs = jobs := by
  induction jobs with
  | nil => rfl
  | cons job rest ih =>
    rw [List.forall_mem_cons] at h
    simp [finish, h.1, ih h.2]

/-- The first occurrence of the buffer ends, the others stay. -/
theorem finish_append (n : Fin 3) (before after : List (Fin 3 × List Byte)) (bytes : List Byte)
    (h : ∀ job ∈ before, job.1 ≠ n) : finish n (before ++ (n, bytes) :: after) = before ++ after := by
  induction before with
  | nil => simp [finish]
  | cons job rest ih =>
    rw [List.forall_mem_cons] at h
    simp [finish, h.1, ih h.2]

end Chip

end Sys2Proof.Machine
end

