-- ==== Sys2Proof/Laws/Complete.lean ====
section
/-! SUPPORT. What a completion with a step is (R140), and which fields the commands depend on. -/

namespace Sys2Proof.Machine

/-- Rule R140: in `Wait(c)` a completion of the right length is the completion rule of `c`. -/
theorem exec_busComplete_chain {s : State} {c : ChainCmd} {resp : List Byte} (h : AwaitsChain c resp s) (ok al tm : Bool) :
    exec (.busComplete resp ok al tm) s = .next (completeChain c resp ok al { s with outstanding := none }) := by
  obtain ⟨hc, ho⟩ := h
  obtain ⟨cmd, ho, hl⟩ := Option.map_eq_some_iff.mp ho
  simp [exec, execBusComplete, complete, hc, ho, hl]

/-- Rule R140: in `Init(q)` a completion of the right length is the completion rule of `q`. -/
theorem exec_busComplete_init {s : State} {q : InitStep} {resp : List Byte} (h : AwaitsInit q resp s) (ok al tm : Bool) :
    exec (.busComplete resp ok al tm) s = .next (completeInit q resp ok tm { s with outstanding := none }) := by
  obtain ⟨hc, ho⟩ := h
  obtain ⟨cmd, ho, hl⟩ := Option.map_eq_some_iff.mp ho
  simp [exec, execBusComplete, complete, hc, ho, hl]

/-- A completion that answers a next state came in `Wait(_)` or `Init(_)`. -/
theorem busComplete_next_cases {s t : State} {resp : List Byte} {ok al tm : Bool}
    (h : exec (.busComplete resp ok al tm) s = .next t) :
    (∃ c, s.ctl = .wait c ∧ t = completeChain c resp ok al { s with outstanding := none })
      ∨ ∃ q, s.ctl = .init q ∧ t = completeInit q resp ok tm { s with outstanding := none } := by
  simp only [exec, execBusComplete] at h
  split at h
  · cases h
  · split at h
    · split at h
      · rename_i hcomplete
        cases h
        unfold complete at hcomplete
        split at hcomplete <;> simp only [Option.some.injEq, reduceCtorEq] at hcomplete
        · exact .inl ⟨_, ‹_›, hcomplete.symm⟩
        · exact .inr ⟨_, ‹_›, hcomplete.symm⟩
      · cases h
    · cases h

/-- Rule R211: a refused submission leaves the chain Stalled, or the slot was empty and the fault is raised. -/
theorem issue_refused (c : ChainCmd) (s : State) :
    (issue c false s).ctl = .stalled c
      ∨ (issue c false s).ctl = .fault .loadNoFrame ∧ (issue c false s).out = s.out := by
  rcases issue_cases c false s with ⟨_, -, h⟩ | ⟨-, -, h⟩ <;> rw [h] <;> simp [submitted_ctl]

theorem command_congr {s t : State} (c : ChainCmd) (h1 : t.statusBits = s.statusBits) (h2 : t.errorFlags = s.errorFlags)
    (h3 : t.outgoingFrame = s.outgoingFrame) (h4 : t.cfg = s.cfg) : command c t = command c s := by
  cases c <;> simp [command, *]

theorem initCommand_congr {s t : State} (q : InitStep) (h1 : t.mode = s.mode) (h2 : t.cfg = s.cfg) :
    initCommand q t = initCommand q s := by
  cases q <;> simp [initCommand, *]

end Sys2Proof.Machine
end

