-- ==== Sys2Proof/Laws/PerInstr.lean ====
section
/-! SUPPORT. Laws of the instructions as syntax, one lemma per constructor. -/

namespace Sys2Proof.Laws.FirstByte

/-- The opcode or code byte that spec/opcode_table.json gives the instruction's row. -/
def tableValue : Instr → Byte
  | .write _ _ => 0x02
  | .read _ _ => 0x03
  | .bitModify _ _ _ => 0x05
  | .loadTxBuffer0 _ _ => 0x40
  | .loadTxBuffer1 _ _ => 0x42
  | .loadTxBuffer2 _ _ => 0x44
  | .requestToSend0 => 0x81
  | .requestToSend1 => 0x82
  | .requestToSend2 => 0x84
  | .readRxBuffer0 _ => 0x90
  | .readRxBuffer1 _ => 0x94
  | .reset => 0xC0
  | .notifyInterrupt _ => 0x01
  | .requestTransmit _ _ => 0x02
  | .busComplete _ _ _ _ => 0x03
  | .probe _ => 0x04
  | .start _ _ => 0x05
  | .stop => 0x06

/-- The encoding's first byte matches the table's row: a bus command in all 8 bits, a stimulus in its 4. -/
def Statement (i : Instr) : Prop :=
  ∃ b rest, (encode i).bytes = b :: rest
    ∧ ((encode i).channel = .bus ∧ b = tableValue i ∨ (encode i).channel = .stimulus ∧ b &&& 0x0F = tableValue i)

/-- A stimulus byte's low four bits are its code. -/
theorem stimulusByte_code (code : Byte) (h : code &&& 0x0F = code) (a b c : Bool) :
    stimulusByte code a b c &&& 0x0F = code := by
  have key : ∀ x : Byte, x &&& 0x0F = 0x00 → ∀ y : Byte, (y ||| x) &&& 0x0F = y &&& 0x0F := by
    intro x hx y
    rw [BitVec.and_comm, BitVec.and_or_distrib_left, BitVec.and_comm 0x0F x, hx, BitVec.and_comm]
    simp
  unfold stimulusByte
  rw [key _ (by cases c <;> rfl), key _ (by cases b <;> rfl), key _ (by cases a <;> rfl), h]

theorem write (addr : Byte) (data : List Byte) : Statement (.write addr data) := ⟨_, _, rfl, .inl ⟨rfl, rfl⟩⟩
theorem read (addr : Byte) (clock : List Byte) : Statement (.read addr clock) := ⟨_, _, rfl, .inl ⟨rfl, rfl⟩⟩
theorem bitModify (addr mask data : Byte) : Statement (.bitModify addr mask data) := ⟨_, _, rfl, .inl ⟨rfl, rfl⟩⟩
theorem loadTxBuffer0 (h : Header) (data : List Byte) : Statement (.loadTxBuffer0 h data) := ⟨_, _, rfl, .inl ⟨rfl, rfl⟩⟩
theorem loadTxBuffer1 (h : Header) (data : List Byte) : Statement (.loadTxBuffer1 h data) := ⟨_, _, rfl, .inl ⟨rfl, rfl⟩⟩
theorem loadTxBuffer2 (h : Header) (data : List Byte) : Statement (.loadTxBuffer2 h data) := ⟨_, _, rfl, .inl ⟨rfl, rfl⟩⟩
theorem requestToSend0 : Statement .requestToSend0 := ⟨_, _, rfl, .inl ⟨rfl, rfl⟩⟩
theorem requestToSend1 : Statement .requestToSend1 := ⟨_, _, rfl, .inl ⟨rfl, rfl⟩⟩
theorem requestToSend2 : Statement .requestToSend2 := ⟨_, _, rfl, .inl ⟨rfl, rfl⟩⟩
theorem readRxBuffer0 (clock : List Byte) : Statement (.readRxBuffer0 clock) := ⟨_, _, rfl, .inl ⟨rfl, rfl⟩⟩
theorem readRxBuffer1 (clock : List Byte) : Statement (.readRxBuffer1 clock) := ⟨_, _, rfl, .inl ⟨rfl, rfl⟩⟩
theorem reset : Statement .reset := ⟨_, _, rfl, .inl ⟨rfl, rfl⟩⟩
theorem notifyInterrupt (submit : Bool) : Statement (.notifyInterrupt submit) :=
  ⟨_, _, rfl, .inr ⟨rfl, stimulusByte_code _ rfl _ _ _⟩⟩
theorem requestTransmit (frame : Frame) (submit : Bool) : Statement (.requestTransmit frame submit) :=
  ⟨_, _, rfl, .inr ⟨rfl, stimulusByte_code _ rfl _ _ _⟩⟩
theorem busComplete (resp : List Byte) (submit alloc timeout : Bool) :
    Statement (.busComplete resp submit alloc timeout) :=
  ⟨_, _, rfl, .inr ⟨rfl, stimulusByte_code _ rfl _ _ _⟩⟩
theorem probe (submit : Bool) : Statement (.probe submit) := ⟨_, _, rfl, .inr ⟨rfl, stimulusByte_code _ rfl _ _ _⟩⟩
theorem start (mode : Mode) (submit : Bool) : Statement (.start mode submit) :=
  ⟨_, _, rfl, .inr ⟨rfl, stimulusByte_code _ rfl _ _ _⟩⟩
theorem stop : Statement .stop := ⟨_, _, rfl, .inr ⟨rfl, stimulusByte_code _ rfl _ _ _⟩⟩

end Sys2Proof.Laws.FirstByte
end

