-- ==== Sys2Proof/Tests/Slice0.lean ====
section
/-! SUPPORT. The model's own tests: the well-formedness checks, every constructor's decoding from written-out words, single steps
with the results that spec/95_test_vectors.md gives, and for every obligation with hypotheses a witness that meets them. -/

open Sys2Proof Sys2Proof.Machine

namespace Sys2Proof.Tests

/-! ### States -/

/-- The parameters of 95_test_vectors.md section 0. -/
def cfg : Config :=
  { Config.initial with cnf0 := 0x00, cnf1 := 0x90, cnf2 := 0x02, inteValue := 0x27, rxb0ctrlValue := 0x60, rxb1ctrlValue := 0x60 }

/-- A chip with the registers the tests touch, buffer n of receive holding bytes n + 1. -/
def chip : Chip where
  regs := [(0x2B, 0x27), (0x2C, 0x25), (0x2D, 0x41), (0x2E, 0x00)]
  tx := #v[[], [], []]
  rx := #v[Vector.replicate 13 0x01, Vector.replicate 13 0x02]
  sending := []
  response := []
  epoch := 0
  performed := 0

/-- The session of power-on with concrete parameters, in the FSM state `c`. -/
def at_ (c : Ctl) : State := { State.reset with cfg := cfg, chip := chip, ctl := c }

/-- RUN0 of 95_test_vectors.md section 0. -/
def run0 : State := at_ .idle

/-- The chain waits for `c`, whose command is `cmd`. -/
def waiting (c : ChainCmd) (cmd : List Byte) : State := { at_ (.wait c) with busy := true, outstanding := some cmd }

/-- The chain waits for ReadFlags. -/
def reading : State := waiting .readFlags [0x03, 0x2C, 0x00, 0x00]

/-- The chain is stalled at ReadFlags. -/
def stalled : State := { at_ (.stalled .readFlags) with busy := true }

/-- The sequencer waits for `q`, whose command is `cmd`. -/
def starting (q : InitStep) (cmd : List Byte) : State := { at_ (.init q) with outstanding := some cmd }

/-- The frame of vector ENC1. -/
def f123 : Frame := ⟨0x123, false, false, 1, #v[0xAA, 0, 0, 0, 0, 0, 0, 0]⟩

/-- The frame of vector ENC3. -/
def remote7FF : Frame := ⟨0x7FF, false, true, 0, #v[0, 0, 0, 0, 0, 0, 0, 0]⟩

/-- The frame of vector ENC9, of the largest length. -/
def full7FF : Frame := ⟨0x7FF, false, false, 8, #v[0xFF, 0xFF, 0xFF, 0xFF, 0xFF, 0xFF, 0xFF, 0xFF]⟩

/-- What a step shows: its outputs, and where it ends. -/
def shown (s : State) (o : Outcome) : Option (List OutEvent × Ctl) :=
  match o with
  | .next t => some (t.out.drop s.out.length, t.ctl)
  | .fault _ => none
  | .refused _ => none

/-- A value of the next state. -/
def after {α : Type} (o : Outcome) (get : State → α) : Option α :=
  match o with
  | .next t => some (get t)
  | .fault _ => none
  | .refused _ => none

/-! ### Well-formedness: every check refuses an ill-formed term -/

theorem test_wf_write_needs_data : (Instr.write 0x28 []).wellFormed = false := by decide
theorem test_wf_read_needs_clock : (Instr.read 0x2C []).wellFormed = false := by decide
theorem test_wf_load0_length : (Instr.loadTxBuffer0 ⟨0, 0, 0, 0, 2⟩ [0xAA]).wellFormed = false := by decide
theorem test_wf_load1_length : (Instr.loadTxBuffer1 ⟨0, 0, 0, 0, 0⟩ [0xAA]).wellFormed = false := by decide
theorem test_wf_load2_length_code : (Instr.loadTxBuffer2 ⟨0, 0, 0, 0, 9⟩ (List.replicate 8 0)).wellFormed = false := by decide
theorem test_wf_rx0_clocks : (Instr.readRxBuffer0 (List.replicate 12 0)).wellFormed = false := by decide
theorem test_wf_rx1_clocks : (Instr.readRxBuffer1 (List.replicate 14 0)).wellFormed = false := by decide
theorem test_wf_request_length_byte : (Instr.requestTransmit { f123 with len := 256 } true).wellFormed = false := by decide

/-! ### Decoding: words written out from rules R70, R71, R74 to R79, R85, and the model's layout of a stimulus -/

theorem test_decode_write : decode ⟨.bus, [0b00000010, 0x28, 0x00, 0x90, 0x02]⟩ = .ok (.write 0x28 [0x00, 0x90, 0x02]) := by rfl
theorem test_decode_read : decode ⟨.bus, [0b00000011, 0x2C, 0x00, 0x00]⟩ = .ok (.read 0x2C [0x00, 0x00]) := by rfl
theorem test_decode_bit_modify : decode ⟨.bus, [0b00000101, 0x2D, 0x40, 0x00]⟩ = .ok (.bitModify 0x2D 0x40 0x00) := by rfl
theorem test_decode_load0 :
    decode ⟨.bus, [0b01000000, 0x24, 0x60, 0x00, 0x00, 0x01, 0xAA]⟩ = .ok (.loadTxBuffer0 ⟨0x24, 0x60, 0, 0, 1⟩ [0xAA]) := by rfl
theorem test_decode_load1 :
    decode ⟨.bus, [0b01000010, 0xFF, 0xEB, 0xFF, 0xFF, 0x40]⟩ = .ok (.loadTxBuffer1 ⟨0xFF, 0xEB, 0xFF, 0xFF, 0x40⟩ []) := by rfl
theorem test_decode_load2 :
    decode ⟨.bus, [0b01000100, 0x00, 0x08, 0x00, 0x00, 0x01, 0x77]⟩ = .ok (.loadTxBuffer2 ⟨0, 8, 0, 0, 1⟩ [0x77]) := by rfl
theorem test_decode_request0 : decode ⟨.bus, [0b10000001]⟩ = .ok .requestToSend0 := by rfl
theorem test_decode_request1 : decode ⟨.bus, [0b10000010]⟩ = .ok .requestToSend1 := by rfl
theorem test_decode_request2 : decode ⟨.bus, [0b10000100]⟩ = .ok .requestToSend2 := by rfl
theorem test_decode_rx0 :
    decode ⟨.bus, 0b10010000 :: List.replicate 13 0x00⟩ = .ok (.readRxBuffer0 (List.replicate 13 0x00)) := by rfl
theorem test_decode_rx1 :
    decode ⟨.bus, 0b10010100 :: List.replicate 13 0x00⟩ = .ok (.readRxBuffer1 (List.replicate 13 0x00)) := by rfl
theorem test_decode_reset : decode ⟨.bus, [0b11000000]⟩ = .ok .reset := by rfl
theorem test_decode_notify : decode ⟨.stimulus, [0b00010001]⟩ = .ok (.notifyInterrupt false) := by rfl
theorem test_decode_request_transmit :
    decode ⟨.stimulus, [0b00000010, 0x00, 0x00, 0x01, 0x23, 0x00, 0x01, 0xAA, 0, 0, 0, 0, 0, 0, 0]⟩
      = .ok (.requestTransmit f123 true) := by rfl
theorem test_decode_bus_complete :
    decode ⟨.stimulus, [0b01100011, 0x00, 0x00, 0x80]⟩ = .ok (.busComplete [0x00, 0x00, 0x80] true false true) := by rfl
theorem test_decode_probe : decode ⟨.stimulus, [0b00000100]⟩ = .ok (.probe true) := by rfl
theorem test_decode_start : decode ⟨.stimulus, [0b00000101, 0b00000101]⟩ = .ok (.start ⟨.loopback, true⟩ true) := by rfl
theorem test_decode_stop : decode ⟨.stimulus, [0b00000110]⟩ = .ok .stop := by rfl
/-- Rule R83: the length is 6 + (byte 5 AND 0x0F), here 15. -/
theorem test_decode_load_overlong :
    decode ⟨.bus, 0x40 :: 0x24 :: 0x60 :: 0x00 :: 0x00 :: 0x09 :: List.replicate 9 0x55⟩
      = .ok (.loadTxBuffer0 ⟨0x24, 0x60, 0x00, 0x00, 0x09⟩ (List.replicate 9 0x55)) := by rfl
theorem test_decode_load_short : decode ⟨.bus, [0x40, 0x24, 0x60, 0x00, 0x00, 0x01]⟩ = .error (.wrongLength 0x40) := by rfl
theorem test_decode_unknown_opcode : decode ⟨.bus, [0x46]⟩ = .error (.unknownOpcode 0x46) := by rfl
theorem test_table_word_bus : decodeTableWord 8 0xC0 = some .reset := by rfl
theorem test_table_word_stimulus : decodeTableWord 4 0x2 = some (.requestTransmit ⟨0, false, false, 0, Vector.replicate 8 0⟩ true) := by
  rfl

/-! ### The script syntax of rule R86, on lines of 95_test_vectors.md -/

theorem test_script_tx : Script.line "TX id=123 std len=1 data=AA".toList = some (.requestTransmit f123 true) := by decide
theorem test_script_done :
    Script.line "DONE 00 00 80 timeout=yes".toList = some (.busComplete [0x00, 0x00, 0x80] true true true) := by decide
theorem test_script_start : Script.line "START loopback oneshot".toList = some (.start ⟨.loopback, true⟩ true) := by decide

/-! ### Single steps of the stimuli: the vectors named -/

/-- GT2. -/
theorem test_notify_refused :
    shown run0 (exec (.notifyInterrupt false) run0)
      = some ([.busCmd [0x03, 0x2C, 0x00, 0x00], .logSubmitFail .readFlags], .stalled .readFlags) := by rfl
/-- GT3. -/
theorem test_notify_while_busy : after (exec (.notifyInterrupt true) reading) (·.interruptPending) = some true := by rfl
/-- GT5. -/
theorem test_request_accepted :
    shown run0 (exec (.requestTransmit f123 true) run0)
      = some ([.txReply .accepted, .queueStop, .busCmd [0x40, 0x24, 0x60, 0x00, 0x00, 0x01, 0xAA]], .wait .loadTransmitBuffer) := by
  rfl
/-- GT10. -/
theorem test_request_wide_identifier :
    shown run0 (exec (.requestTransmit ⟨0x800, false, false, 0, Vector.replicate 8 0⟩ true) run0)
      = some ([.txReply .rejectedInvalid], .idle) := by rfl
/-- Program P7, step 3 (CH18). -/
theorem test_complete_rx0 :
    let s := { waiting .readRxBuf0 (0x90 :: List.replicate 13 0x00) with statusBits := 0x03 }
    shown s (exec (.busComplete [0x00, 0x91, 0xA8, 0x56, 0x78, 0x08, 1, 2, 3, 4, 5, 6, 7, 8] true true false) s)
      = some ([.rxFrame ⟨0x12345678, true, false, 8, #v[1, 2, 3, 4, 5, 6, 7, 8]⟩, .busCmd (0x94 :: List.replicate 13 0x00)],
          .wait .readRxBuf1) := by rfl
/-- CH14. -/
theorem test_complete_overflow_wraps :
    let s := { waiting .clearErrorFlags [0x05, 0x2D, 0xC0, 0x00] with errorFlags := 0xC0, overflowCount := 0xFFFFFFFF }
    after (exec (.busComplete [0, 0, 0, 0] true true false) s) (·.overflowCount) = some 0 := by rfl
/-- ST4. -/
theorem test_probe_refused :
    shown (at_ .unprobed) (exec (.probe false) (at_ .unprobed))
      = some ([.busCmd [0xC0], .initResult .initBusError], .probeFailed) := by rfl
/-- ST6, its first step. -/
theorem test_start_enables :
    shown (at_ .off) (exec (.start ⟨.loopback, true⟩ true) (at_ .off))
      = some ([.transceiverEnable, .busCmd [0xC0]], .init .sReset) := by rfl
/-- ST11. -/
theorem test_stop_releases :
    let s := { run0 with outgoingFrame := some f123 }
    shown s (exec .stop s) = some ([.txReleased f123, .transceiverDisable], .off) := by rfl
/-- ST12. -/
theorem test_stop_waits : exec .stop reading = .fault .stopWhileOutstanding := by rfl

/-! ### Single steps of the bus commands: rules R60 to R63, R68, R73 to R80, R134 -/

theorem test_write_second_register :
    after (exec (.write 0x2B [0x11, 0x22]) run0) (fun t => (t.chip.reg 0x2C, t.chip.reg 0x2E)) = some (0x22, 0x00) := by rfl
/-- Of 0x2D, holding 0x41, only bits 7 and 6 are written. -/
theorem test_write_error_flags : after (exec (.write 0x2D [0xBF]) run0) (·.chip.reg 0x2D) = some 0x81 := by rfl
theorem test_read_two :
    after (exec (.read 0x2C [0x00, 0x00]) run0) (fun t => t.chip.response.drop 2) = some [0x25, 0x41] := by rfl
theorem test_bit_modify_clears : after (exec (.bitModify 0x2C 0x24 0x00) run0) (·.chip.reg 0x2C) = some 0x01 := by rfl
theorem test_load_buffer_1 :
    after (exec (.loadTxBuffer1 ⟨1, 2, 3, 4, 1⟩ [0xAA]) run0) (·.chip.tx) = some #v[[], [1, 2, 3, 4, 1, 0xAA], []] := by rfl
theorem test_request_buffer_2 : after (exec .requestToSend2 run0) (·.chip.sending) = some [(2, [])] := by rfl
theorem test_read_rx_1 :
    after (exec (.readRxBuffer1 (List.replicate 13 0x00)) run0) (fun t => t.chip.response.drop 1)
      = some (List.replicate 13 0x02) := by rfl
theorem test_read_rx_0_clears_flag :
    after (exec (.readRxBuffer0 (List.replicate 13 0x00)) run0) (·.chip.reg 0x2C) = some 0x24 := by rfl
theorem test_reset_leaves_the_block : after (exec .reset reading) (fun t => (t.ctl, t.outstanding, t.chip.regs))
    = some (.wait .readFlags, some [0x03, 0x2C, 0x00, 0x00], []) := by rfl

/-! ### Witnesses: for each obligation with hypotheses, states and operands that meet them -/

theorem witness_DecodeInvertsEncode : (Instr.loadTxBuffer0 ⟨0, 0, 0, 0, 0xFF⟩ (List.replicate 15 0xFF)).wellFormed = true := by decide
theorem witness_EncodeInvertsDecode_bus : decode ⟨.bus, [0x84]⟩ = .ok .requestToSend2 := by rfl
theorem witness_EncodeInvertsDecode_stimulus :
    decode ⟨.stimulus, [0x05, 0x06]⟩ = .ok (.start ⟨.listenOnly, true⟩ true) := by rfl
theorem witness_ReservedCodes_zero : (0xF0 : Byte) &&& 0x0F = 0x00 := by decide
theorem witness_ReservedCodes_seven : (0x07 : Nat) ≤ ((0x07 : Byte) &&& 0x0F).toNat ∧ 0x07 ≤ ((0x1F : Byte) &&& 0x0F).toNat := by decide
theorem witness_ReservedCodes_bus :
    (0x46 : Byte) ∉ ([0x02, 0x03, 0x05, 0x40, 0x42, 0x44, 0x81, 0x82, 0x84, 0x90, 0x94, 0xC0] : List Byte) := by decide
theorem witness_StreamLength :
    (Instr.loadTxBuffer0 ⟨0, 0, 0, 0, 1⟩ [0xAA]).wellFormed = true
      ∧ (encode (.loadTxBuffer0 ⟨0, 0, 0, 0, 1⟩ [0xAA])).channel = .bus
      ∧ streamLength (encode (.loadTxBuffer0 ⟨0, 0, 0, 0, 1⟩ [0xAA])).bytes = some 7 := by decide
theorem witness_IssuedCommands :
    full7FF.wellFormed = true
      ∧ command .loadTransmitBuffer { run0 with outgoingFrame := some full7FF }
        = some ([0x40, 0xFF, 0xE0, 0x00, 0x00, 0x08] ++ List.replicate 8 0xFF) := by decide
theorem witness_OnlyTheBlocksOpcodes :
    ∃ t, exec (.notifyInterrupt true) run0 = .next t ∧ OutEvent.busCmd [0x03, 0x2C, 0x00, 0x00] ∈ t.out :=
  ⟨_, rfl, by decide⟩

/-- The idle state meets the invariant. -/
theorem witness_Inv_idle : Inv run0 where
  outstanding_awaiting := rfl
  wait_command := by rintro c ⟨⟩
  init_command := by rintro q ⟨⟩
  nothing_pending := fun _ => ⟨rfl, rfl⟩
  busy_ctl := rfl
  slot_running := by rintro ⟨⟩
  slot_wellFormed := by rintro f ⟨⟩
  clear_mask := by rintro ⟨⟩
  regs_wf := by decide

/-- A waiting chain with both flags set and a held frame meets the invariant. -/
theorem witness_Inv_reading :
    Inv { reading with interruptPending := true, transmitPending := true, outgoingFrame := some f123 } where
  outstanding_awaiting := rfl
  wait_command := by rintro c ⟨⟩; rfl
  init_command := by rintro q ⟨⟩
  nothing_pending := by rintro ⟨⟩
  busy_ctl := rfl
  slot_running := by rintro ⟨⟩
  slot_wellFormed := by rintro f ⟨⟩; decide
  clear_mask := by rintro ⟨⟩
  regs_wf := by decide

/-- A startup step meets the invariant. -/
theorem witness_Inv_starting : Inv (starting .sMode [0x02, 0x0F, 0x00]) where
  outstanding_awaiting := rfl
  wait_command := by rintro c ⟨⟩
  init_command := by rintro q ⟨⟩; rfl
  nothing_pending := fun _ => ⟨rfl, rfl⟩
  busy_ctl := rfl
  slot_running := fun _ => rfl
  slot_wellFormed := by rintro f ⟨⟩
  clear_mask := by rintro ⟨⟩
  regs_wf := by decide

theorem witness_EveryStepKeepsInvariant_step : after (step (placeMessage ⟨.stimulus, [0x01]⟩ run0)) (·.ctl) = some (.wait .readFlags) := by
  rfl
theorem witness_IdleImpliesNothingPending :
    IdleMeansNothingPending run0 ∧ after (step run0) (·.busy) = some false := ⟨fun _ => ⟨rfl, rfl⟩, rfl⟩
theorem witness_AtMostOneCommand :
    ∃ t, exec (.requestTransmit f123 true) run0 = .next t
      ∧ commandsOf t.out = [[0x40, 0x24, 0x60, 0x00, 0x00, 0x01, 0xAA]] := ⟨_, rfl, by decide⟩
theorem witness_StepRuns_message :
    (placeMessage ⟨.stimulus, [0x06]⟩ run0).inbox = .message ⟨.stimulus, [0x06]⟩ :: [] ∧ decode ⟨.stimulus, [0x06]⟩ = .ok .stop :=
  ⟨rfl, rfl⟩
theorem witness_StepRuns_undecodable :
    (placeMessage ⟨.stimulus, [0x07]⟩ run0).inbox = .message ⟨.stimulus, [0x07]⟩ :: []
      ∧ decode ⟨.stimulus, [0x07]⟩ = .error (.reservedStimulus 0x07) := ⟨rfl, rfl⟩
theorem witness_StepRuns_event :
    { run0 with inbox := [.chipEvent (.frameSent 0)] }.inbox = .chipEvent (.frameSent 0) :: [] := by rfl
theorem witness_StepRuns_empty : run0.inbox = [] := by rfl
theorem witness_Legal_busComplete : Legal (.busComplete [0, 0, 0, 0] true true false) reading := ⟨rfl, rfl⟩
theorem witness_Legal_stop : Legal .stop run0 := rfl
theorem witness_Legal_nothing_outstanding : run0.outstanding = none := rfl
theorem witness_Legal_not_awaiting :
    { run0 with outstanding := some [0xC0] }.ctl.awaiting = false
      ∧ { run0 with outstanding := some [0xC0] }.outstanding.map List.length = some ([0x00] : List Byte).length := by decide
theorem witness_Legal_wrong_length :
    reading.outstanding = some [0x03, 0x2C, 0x00, 0x00] ∧ ([0, 0, 0] : List Byte).length ≠ [0x03, 0x2C, 0x00, 0x00].length := by
  decide
theorem witness_Legal_stop_awaiting : (starting .pReset [0xC0]).ctl.awaiting = true := rfl
theorem witness_ParametersNeverChange : after (exec (.start ⟨.normal, false⟩ true) (at_ .off)) (·.mode) = some ⟨.normal, false⟩ := by
  rfl
theorem witness_Notify_not_running : (at_ .off).ctl.running = false := rfl
theorem witness_Notify_busy : stalled.ctl.running = true ∧ stalled.busy = true := ⟨rfl, rfl⟩
theorem witness_Notify_idle : run0.ctl.running = true ∧ run0.busy = false := ⟨rfl, rfl⟩
/-- GT3 and rule R110: the whole chain of hypotheses, through all four steps. -/
theorem witness_TwoInterrupts : stalled.ctl.running = true ∧ stalled.busy = true := ⟨rfl, rfl⟩
theorem witness_TwoInterrupts_kept :
    let s := { waiting .requestSend [0x81] with interruptPending := true }
    s.ctl = .wait .requestSend ∧ ChainCmd.requestSend ≠ .readFlags
      ∧ after (exec (.busComplete [0x00] true true false) s) (·.interruptPending) = some true := ⟨rfl, by decide, rfl⟩
theorem witness_TwoInterrupts_kept_flags :
    let s := { reading with interruptPending := true }
    s.ctl = .wait .readFlags ∧ respByte [0, 0, 0x01, 0] 2 ≠ 0x00
      ∧ after (exec (.busComplete [0, 0, 0x01, 0] true true false) s) (·.interruptPending) = some true := ⟨rfl, by decide, rfl⟩
theorem witness_TwoInterrupts_repoll :
    let s := { reading with interruptPending := true }
    AwaitsChain .readFlags [0xAA, 0xBB, 0x00, 0xFF] s ∧ s.interruptPending = true ∧ s.transmitPending = false :=
  ⟨⟨rfl, rfl⟩, rfl, rfl⟩
theorem witness_Rejected_invalid : Frame.wellFormed { f123 with len := 9 } = false := by decide
theorem witness_Rejected_not_running : f123.wellFormed = true ∧ (at_ .off).ctl.running = false := by decide
theorem witness_Rejected_slot_full :
    f123.wellFormed = true ∧ run0.ctl.running = true ∧ { run0 with outgoingFrame := some remote7FF }.outgoingFrame = some remote7FF := by
  decide
theorem witness_Accepted :
    full7FF.wellFormed = true ∧ run0.ctl.running = true ∧ run0.outgoingFrame = none ∧ run0.busy = false := by decide
theorem witness_Accepted_busy :
    remote7FF.wellFormed = true ∧ stalled.ctl.running = true ∧ stalled.outgoingFrame = none ∧ stalled.busy = true := by decide
theorem witness_FrameWellFormedMeaning : Frame.wellFormed ⟨0x1FFFFFFF, true, true, 8, Vector.replicate 8 0⟩ = true := by decide
theorem witness_QuiescentPoint : AwaitsChain .readFlags [0xAA, 0xBB, 0x00, 0x40] reading := ⟨rfl, rfl⟩
/-- Q1. -/
theorem witness_QuiescentPoint_transmit :
    let s := { reading with transmitPending := true, outgoingFrame := some f123 }
    AwaitsChain .readFlags [0, 0, 0x00, 0] s ∧ s.transmitPending = true ∧ s.outgoingFrame = some f123 := ⟨⟨rfl, rfl⟩, rfl, rfl⟩
/-- Q4. -/
theorem witness_QuiescentPoint_empty_slot :
    let s := { reading with transmitPending := true }
    AwaitsChain .readFlags [0, 0, 0x00, 0] s ∧ s.transmitPending = true ∧ s.outgoingFrame = none := ⟨⟨rfl, rfl⟩, rfl, rfl⟩
/-- Q2. -/
theorem witness_QuiescentPoint_interrupt :
    let s := { reading with interruptPending := true }
    AwaitsChain .readFlags [0, 0, 0x00, 0] s ∧ s.transmitPending = false ∧ s.interruptPending = true := ⟨⟨rfl, rfl⟩, rfl, rfl⟩
/-- Q3. -/
theorem witness_QuiescentPoint_rest : reading.transmitPending = false ∧ reading.interruptPending = false := ⟨rfl, rfl⟩
theorem witness_TransmitGoesBeforeRepoll :
    let s := { reading with interruptPending := true, transmitPending := true, outgoingFrame := some f123 }
    AwaitsChain .readFlags [0, 0, 0x00, 0xFF] s ∧ s.outgoingFrame = some f123
      ∧ (List.replicate 7 (0x00 : Byte)).length = (encodeTx s.cfg.txStdRtrInDlc f123).length := ⟨⟨rfl, rfl⟩, rfl, rfl⟩
theorem witness_GateFlagWriters_busy : after (exec (.notifyInterrupt true) run0) (·.busy) = some true ∧ run0.busy = false := ⟨rfl, rfl⟩
theorem witness_GateFlagWriters_flags :
    after (exec .stop { stalled with interruptPending := true, transmitPending := true, outgoingFrame := some f123 })
      (fun t => (t.interruptPending, t.transmitPending, t.outgoingFrame)) = some (false, false, none) := by rfl
theorem witness_BusyIsCleared :
    reading.busy = true ∧ after (exec (.busComplete [0, 0, 0, 0] true true false) reading) (·.busy) = some false := ⟨rfl, rfl⟩
theorem witness_ReadFlags_rx0 :
    AwaitsChain .readFlags [0, 0, 0x03, 0] reading ∧ (0x03 : Byte).getLsbD reading.cfg.rx0ifBit = true := ⟨⟨rfl, rfl⟩, rfl⟩
theorem witness_ReadFlags_rx1 :
    AwaitsChain .readFlags [0, 0, 0x02, 0] reading
      ∧ (0x02 : Byte).getLsbD reading.cfg.rx0ifBit = false ∧ (0x02 : Byte).getLsbD reading.cfg.rx1ifBit = true :=
  ⟨⟨rfl, rfl⟩, rfl, rfl⟩
theorem witness_ReadFlags_other :
    AwaitsChain .readFlags [0, 0, 0x20, 0] reading ∧ (0x20 : Byte).getLsbD reading.cfg.rx0ifBit = false
      ∧ (0x20 : Byte).getLsbD reading.cfg.rx1ifBit = false ∧ (0x20 : Byte) ≠ 0x00 := ⟨⟨rfl, rfl⟩, rfl, rfl, by decide⟩
theorem witness_ReadRxBuf0 :
    let s := { waiting .readRxBuf0 (0x90 :: List.replicate 13 0x00) with statusBits := 0x03 }
    AwaitsChain .readRxBuf0 (List.replicate 14 0xFF) s ∧ s.statusBits.getLsbD s.cfg.rx1ifBit = true := ⟨⟨rfl, rfl⟩, rfl⟩
theorem witness_ReadRxBuf0_transmit :
    let s := { waiting .readRxBuf0 (0x90 :: List.replicate 13 0x00) with
                statusBits := 0x01, transmitPending := true, outgoingFrame := some f123 }
    AwaitsChain .readRxBuf0 (List.replicate 14 0x00) s ∧ s.statusBits.getLsbD s.cfg.rx1ifBit = false
      ∧ s.transmitPending = true ∧ s.outgoingFrame = some f123 := ⟨⟨rfl, rfl⟩, rfl, rfl, rfl⟩
/-- T2: the corner case of rule R107. -/
theorem witness_ReadRxBuf0_empty_slot :
    let s := { waiting .readRxBuf0 (0x90 :: List.replicate 13 0x00) with statusBits := 0x01, transmitPending := true }
    AwaitsChain .readRxBuf0 (List.replicate 14 0x00) s ∧ s.statusBits.getLsbD s.cfg.rx1ifBit = false ∧ s.outgoingFrame = none :=
  ⟨⟨rfl, rfl⟩, rfl, rfl⟩
theorem witness_ReadRxBuf1 :
    let s := { waiting .readRxBuf1 (0x94 :: List.replicate 13 0x00) with transmitPending := true, outgoingFrame := some f123 }
    AwaitsChain .readRxBuf1 (List.replicate 14 0x00) s ∧ s.transmitPending = true ∧ s.outgoingFrame = some f123 :=
  ⟨⟨rfl, rfl⟩, rfl, rfl⟩
theorem witness_ReadRxBuf1_flags :
    let s := waiting .readRxBuf1 (0x94 :: List.replicate 13 0x00)
    AwaitsChain .readRxBuf1 (List.replicate 14 0x00) s ∧ s.transmitPending = false := ⟨⟨rfl, rfl⟩, rfl⟩
theorem witness_ClearStatusFlags :
    let s := { waiting .clearStatusFlags [0x05, 0x2C, 0x24, 0x00] with statusBits := 0x24, errorFlags := 0x01 }
    AwaitsChain .clearStatusFlags [0, 0, 0, 0] s ∧ s.errorFlags ≠ 0x00 := ⟨⟨rfl, rfl⟩, by decide⟩
theorem witness_ClearStatusFlags_no_error :
    let s := { waiting .clearStatusFlags [0x05, 0x2C, 0x04, 0x00] with statusBits := 0x04 }
    AwaitsChain .clearStatusFlags [0, 0, 0, 0] s ∧ s.errorFlags = 0x00 := ⟨⟨rfl, rfl⟩, rfl⟩
theorem witness_ClearErrorFlags :
    AwaitsChain .clearErrorFlags [0, 0, 0, 0] { waiting .clearErrorFlags [0x05, 0x2D, 0xC0, 0x00] with errorFlags := 0xC0 } :=
  ⟨rfl, rfl⟩
theorem witness_TransmitPath_load :
    AwaitsChain .loadTransmitBuffer (List.replicate 7 0x00)
      { waiting .loadTransmitBuffer [0x40, 0x24, 0x60, 0x00, 0x00, 0x01, 0xAA] with outgoingFrame := some f123 } := ⟨rfl, rfl⟩
theorem witness_TransmitPath_request : AwaitsChain .requestSend [0x00] (waiting .requestSend [0x81]) := ⟨rfl, rfl⟩
theorem witness_SnapshotIsWritten :
    after (exec (.busComplete [0, 0, 0xFF, 0x40] true true false) reading) (fun t => (t.statusBits, t.errorFlags)) = some (0xFF, 0x40) := by
  rfl
theorem witness_SnapshotBeforeRead :
    (waiting .readRxBuf1 (0x94 :: List.replicate 13 0x00)).ctl.readsSnapshot = false ∧ run0.ctl.readsSnapshot = false := ⟨rfl, rfl⟩
theorem witness_NoCancellation :
    reading.ctl = .wait .readFlags ∧ after (exec (.probe true) reading) (·.ctl) = some (.wait .readFlags) := ⟨rfl, rfl⟩
theorem witness_StalledIsLeft : stalled.ctl = .stalled .readFlags ∧ stalled.busy = true := ⟨rfl, rfl⟩
theorem witness_RefusalStalls :
    after (exec (.notifyInterrupt false) run0) (·.ctl) = some (.stalled .readFlags) ∧ run0.ctl ≠ .stalled .readFlags := ⟨rfl, by decide⟩
theorem witness_RefusalStalls_submission :
    Inv run0 ∧ run0.ctl.running = true
      ∧ after (exec (.notifyInterrupt false) run0) (·.out) = some (run0.out ++ [.busCmd readFlagsBytes, .logSubmitFail .readFlags])
      ∧ commandsOf [.busCmd readFlagsBytes, .logSubmitFail .readFlags] ≠ [] := ⟨witness_Inv_idle, rfl, rfl, by decide⟩
theorem witness_ChainFailuresStay :
    run0.ctl.running = true ∧ Instr.notifyInterrupt false ≠ .stop ∧ (shown run0 (exec (.notifyInterrupt false) run0)).isSome = true :=
  ⟨rfl, by decide, rfl⟩
theorem witness_FaultIsSticky :
    (at_ (.fault .loadNoFrame)).ctl = .fault .loadNoFrame
      ∧ after (exec .stop (at_ (.fault .loadNoFrame))) (·.ctl) = some (.fault .loadNoFrame) := ⟨rfl, rfl⟩
/-- Q4. -/
theorem witness_FaultComesFromEmptyLoad :
    let s := { reading with transmitPending := true }
    after (exec (.busComplete [0, 0, 0, 0] true true false) s) (·.ctl) = some (.fault .loadNoFrame) ∧ s.ctl ≠ .fault .loadNoFrame :=
  ⟨rfl, by decide⟩
theorem witness_DecodedIdentifier :
    (0xFF : Byte).getLsbD 3 = true ∧ (0xF7 : Byte).getLsbD 3 = false
      ∧ ([0, 1, 2, 3, 4, 5, 6] : List Byte) = 0 :: 1 :: 2 :: 3 :: 4 :: 5 :: [6] := by decide
theorem witness_DecodedLength : (List.replicate 14 (0xFF : Byte)).length = 14 := by decide
theorem witness_EncodedFrame :
    Frame.wellFormed ⟨0x1FFFFFFF, true, false, 8, #v[0, 1, 2, 3, 4, 5, 6, 7]⟩ = true ∧ full7FF.wellFormed = true
      ∧ full7FF.ext = false := by decide
theorem witness_CodecRoundTrip : remote7FF.wellFormed = true ∧ remote7FF.ext = false ∧ remote7FF.rtr = true := by decide
theorem witness_ProbeEffect : (at_ .unprobed).ctl = .unprobed ∧ run0.ctl ≠ .unprobed := by decide
theorem witness_ProbeCompletions :
    AwaitsInit .pReset [0xFF] (starting .pReset [0xC0])
      ∧ AwaitsInit .pReadId [0xFF, 0xFF, 0x91, 0xE7] (starting .pReadId [0x03, 0x0E, 0x00, 0x00]) := ⟨⟨rfl, rfl⟩, ⟨rfl, rfl⟩⟩
theorem witness_ProbeFailed :
    (at_ .probeFailed).ctl = .probeFailed ∧ after (exec (.probe true) (at_ .probeFailed)) (·.ctl) = some .probeFailed := ⟨rfl, rfl⟩
theorem witness_StartEffect : (at_ .off).ctl = .off ∧ run0.ctl ≠ .off := by decide
theorem witness_StartSteps :
    AwaitsInit .sReset [0] (starting .sReset [0xC0])
      ∧ AwaitsInit .sBitTiming [0, 0, 0, 0, 0] (starting .sBitTiming [0x02, 0x28, 0x00, 0x90, 0x02])
      ∧ AwaitsInit .sIntEnable [0, 0, 0] (starting .sIntEnable [0x02, 0x2B, 0x27])
      ∧ AwaitsInit .sRxb0Ctrl [0, 0, 0] (starting .sRxb0Ctrl [0x02, 0x60, 0x60])
      ∧ AwaitsInit .sRxb1Ctrl [0, 0, 0] (starting .sRxb1Ctrl [0x02, 0x70, 0x60])
      ∧ AwaitsInit .sMode [0, 0, 0] (starting .sMode [0x02, 0x0F, 0x00]) :=
  ⟨⟨rfl, rfl⟩, ⟨rfl, rfl⟩, ⟨rfl, rfl⟩, ⟨rfl, rfl⟩, ⟨rfl, rfl⟩, ⟨rfl, rfl⟩⟩
/-- ST8: one-shot lies outside the mask; and a mode not entered. -/
theorem witness_PollMode :
    let s := { starting .sPollMode [0x03, 0x0E, 0x00] with mode := ⟨.normal, true⟩ }
    AwaitsInit .sPollMode [0, 0, 0x1F] s
      ∧ (0x1F : Byte) &&& s.cfg.opmodeMask = modeCode s.cfg s.mode &&& s.cfg.opmodeMask
      ∧ (0x80 : Byte) &&& s.cfg.opmodeMask ≠ modeCode s.cfg s.mode &&& s.cfg.opmodeMask := ⟨⟨rfl, rfl⟩, by decide, by decide⟩
theorem witness_StartSequence :
    (at_ .off).ctl = .off
      ∧ (0x5F : Byte) &&& (at_ .off).cfg.opmodeMask = modeCode (at_ .off).cfg ⟨.loopback, true⟩ &&& (at_ .off).cfg.opmodeMask := by
  decide
theorem witness_StopEffect :
    run0.ctl.running = true ∧ run0.ctl.awaiting = false ∧ run0.outgoingFrame = none
      ∧ { stalled with outgoingFrame := some f123 }.outgoingFrame = some f123 ∧ stalled.ctl.running = true
      ∧ stalled.ctl.awaiting = false ∧ (at_ .unprobed).ctl.running = false ∧ (at_ .unprobed).ctl.awaiting = false := by decide
theorem witness_Write_top : (0xFE : Byte).toNat + [0x11, (0x22 : Byte)].length ≤ 256 := by decide
theorem witness_Write_error_flags :
    (0x2B : Byte).toNat + 2 = 0x2D ∧ ([0x11, 0x22, 0xFF] : List Byte)[2]? = some 0xFF := by decide
theorem witness_Read_top : 1 < [0x00, (0x00 : Byte)].length ∧ (0xFE : Byte).toNat + 1 < 256 := by decide
theorem witness_BitModify : (0x41 : Byte) ≠ 0x2D := by decide
theorem witness_LoadTxBuffer : ∀ job ∈ run0.chip.sending, job.1 ≠ (2 : Fin 3) := by decide
theorem witness_LoadTxBuffer_overlong :
    (∀ job ∈ run0.chip.sending, job.1 ≠ (0 : Fin 3)) ∧ 8 < (List.replicate 9 (0x00 : Byte)).length := by decide
theorem witness_RequestToSend : ((2 : Fin 3) = 2 ∧ Instr.requestToSend2 = .requestToSend2) := ⟨rfl, rfl⟩
theorem witness_ReadRxBuffer :
    ((1 : Fin 2) = 1 ∧ Instr.readRxBuffer1 (List.replicate 13 0x00) = .readRxBuffer1 (List.replicate 13 0x00)) := ⟨rfl, rfl⟩
theorem witness_ChipEvents :
    ([(0, [0x01]), (2, [0x02]), (2, [])] : List (Fin 3 × List Byte)) = [(0, [0x01])] ++ (2, [0x02]) :: [(2, [])]
      ∧ ∀ job ∈ ([(0, [0x01])] : List (Fin 3 × List Byte)), job.1 ≠ 2 := by decide
theorem witness_ChipEvents_no_transmission :
    ∀ job ∈ ([(0, [0x01]), (1, [])] : List (Fin 3 × List Byte)), job.1 ≠ 2 := by decide

end Sys2Proof.Tests
end

/-! ## What an instruction and a step can do

The instructions of the bus channel as chip operations, and the inversions of Stop and of `step`, each said once. -/

namespace Sys2Proof.Machine

/-- Rule R241: a bus command is an operation of the chip's and nothing else. -/
theorem exec_of_bus {i : Instr} (h : (encode i).channel = .bus) (s : State) :
    ∃ f : Chip → Chip, exec i s = .next (s.onChip f) := by
  cases i with
  | write _ _ | read _ _ | bitModify _ _ _ | loadTxBuffer0 _ _ | loadTxBuffer1 _ _ | loadTxBuffer2 _ _
  | requestToSend0 | requestToSend1 | requestToSend2 | readRxBuffer0 _ | readRxBuffer1 _ | reset => exact ⟨_, rfl⟩
  | notifyInterrupt _ | requestTransmit _ _ | busComplete _ _ _ _ | probe _ | start _ _ | stop => cases h

/-- Rules R195, R196: a Stop with a next state came with no command outstanding, and tears down while Running only. -/
theorem stop_next {s t : State} (h : exec .stop s = .next t) :
    s.ctl.awaiting = false ∧ t = if s.ctl.running then tearDown s else s := by
  cases hctl : s.ctl with
  | idle | stalled _ | unprobed | probeFailed | off | fault _ =>
    simp only [exec, execStop, hctl, Host.Outcome.next.injEq] at h
    exact ⟨rfl, h.symm⟩
  | wait _ | init _ => simp [exec, execStop, hctl] at h

/-- Everything a step with a next state can do: nothing without an input, the chip's own event, or a decoded instruction,
the last two on the state without its first input. -/
theorem step_next_cases {s t : State} (h : step s = .next t) :
    (s.inbox = [] ∧ t = s)
      ∨ (∃ e later, s.inbox = .chipEvent e :: later ∧ t = { s with inbox := later }.onChip fun c => c.event s.cfg e)
      ∨ ∃ m later i, s.inbox = .message m :: later ∧ decode m = .ok i ∧ exec i { s with inbox := later } = .next t := by
  unfold step nextInput at h
  match hin : s.inbox with
  | [] =>
    simp only [hin, Host.Outcome.next.injEq] at h
    exact .inl ⟨rfl, h.symm⟩
  | .chipEvent e :: later =>
    simp only [hin, Host.Outcome.next.injEq] at h
    exact .inr (.inl ⟨e, later, rfl, h.symm⟩)
  | .message m :: later =>
    simp only [hin] at h
    cases hm : decode m with
    | ok i => exact .inr (.inr ⟨m, later, i, rfl, hm, by simpa only [hm] using h⟩)
    | error e => simp [hm] at h

end Sys2Proof.Machine

/-! ## The gate flags

`busy`, `interruptPending` and `transmitPending` (R21 to R23) together: the operations that leave all three as they are. -/

namespace Sys2Proof.Machine

/-- The three flags of the event coalescing gate. -/
def State.gate (s : State) : Bool × Bool × Bool := (s.busy, s.interruptPending, s.transmitPending)

section
variable (s : State)

@[simp] theorem emit_gate (e : OutEvent) : (emit e s).gate = s.gate := rfl

@[simp] theorem onChip_gate (f : Chip → Chip) : (s.onChip f).gate = s.gate := rfl

@[simp] theorem takeSnapshot_gate (resp : List Byte) : (takeSnapshot resp s).gate = s.gate := rfl

@[simp] theorem issue_gate (c : ChainCmd) (ok : Bool) : (issue c ok s).gate = s.gate := by simp [State.gate]

@[simp] theorem deliver_gate (al : Bool) (f : Frame) : (deliver al f s).gate = s.gate := by simp [State.gate]

@[simp] theorem issueInit_gate (q : InitStep) (ok : Bool) : (issueInit q ok s).gate = s.gate := by
  rcases issueInit_cases q ok s with ⟨-, h⟩ | ⟨-, _, _, -, -, -, h⟩ <;> rw [h] <;> rfl

@[simp] theorem acknowledgeTransmit_gate : (acknowledgeTransmit s).gate = s.gate := by
  unfold acknowledgeTransmit; split <;> rfl

@[simp] theorem countOverflow_gate : (countOverflow s).gate = s.gate := by
  unfold countOverflow; split <;> rfl

@[simp] theorem completeReadId_gate (resp : List Byte) : (completeReadId resp s).gate = s.gate := by
  unfold completeReadId; split <;> rfl

@[simp] theorem completePollMode_gate (resp : List Byte) (ok tm : Bool) :
    (completePollMode resp ok tm s).gate = s.gate := by
  unfold completePollMode
  split
  · rfl
  · split
    · rfl
    · exact issueInit_gate ..

/-- The startup sequencer leaves the gate alone. -/
@[simp] theorem completeInit_gate (q : InitStep) (resp : List Byte) (ok tm : Bool) :
    (completeInit q resp ok tm s).gate = s.gate := by
  cases q with
  | pReadId => exact completeReadId_gate ..
  | sPollMode => exact completePollMode_gate ..
  | pReset | sReset | sBitTiming | sIntEnable | sRxb0Ctrl | sRxb1Ctrl | sMode => exact issueInit_gate ..

/-- Rule R133: the completion of ClearStatusFlags only submits and acknowledges. -/
@[simp] theorem completeClearStatusFlags_gate (ok : Bool) : (completeClearStatusFlags ok s).gate = s.gate := by
  unfold completeClearStatusFlags
  dsimp only
  split_ifs <;> simp only [issue_gate, acknowledgeTransmit_gate]

end

end Sys2Proof.Machine

/-! ## Idle implies nothing pending (R34)

An operation keeps the implication because it leaves the gate alone, ends with the block busy, or only clears a pending flag. -/

namespace Sys2Proof.Machine

theorem idleMeansNothingPending_of_gate_eq {s t : State} (hs : IdleMeansNothingPending s) (h : t.gate = s.gate) :
    IdleMeansNothingPending t := by
  simp only [State.gate, Prod.mk.injEq] at h
  obtain ⟨hbusy, hinterrupt, htransmit⟩ := h
  rwa [IdleMeansNothingPending, hbusy, hinterrupt, htransmit]

theorem idleMeansNothingPending_of_busy {s : State} (h : s.busy = true) : IdleMeansNothingPending s :=
  fun hidle => absurd h (by simp [hidle])

theorem IdleMeansNothingPending.clearTransmit {s : State} (hs : IdleMeansNothingPending s) :
    IdleMeansNothingPending { s with transmitPending := false } :=
  fun hidle => ⟨(hs hidle).1, rfl⟩

theorem IdleMeansNothingPending.clearInterrupt {s : State} (hs : IdleMeansNothingPending s) :
    IdleMeansNothingPending { s with interruptPending := false } :=
  fun hidle => ⟨rfl, (hs hidle).2⟩

theorem IdleMeansNothingPending.issue {s : State} {c : ChainCmd} {ok : Bool}
    (hs : IdleMeansNothingPending s) : IdleMeansNothingPending (issue c ok s) :=
  idleMeansNothingPending_of_gate_eq hs (issue_gate ..)

theorem IdleMeansNothingPending.deliver {s : State} {al : Bool} {f : Frame}
    (hs : IdleMeansNothingPending s) : IdleMeansNothingPending (deliver al f s) :=
  idleMeansNothingPending_of_gate_eq hs (deliver_gate ..)

theorem IdleMeansNothingPending.issueInit {s : State} {q : InitStep} {ok : Bool}
    (hs : IdleMeansNothingPending s) : IdleMeansNothingPending (issueInit q ok s) :=
  idleMeansNothingPending_of_gate_eq hs (issueInit_gate ..)

/-! ### The chain's completions -/

/-- Rule R106: `busy` is cleared only when both pending flags are found clear. -/
theorem IdleMeansNothingPending.atQuiescentPoint {s : State} (hs : IdleMeansNothingPending s) (ok : Bool) :
    IdleMeansNothingPending (atQuiescentPoint ok s) := by
  rcases atQuiescentPoint_cases ok s with ⟨-, h⟩ | ⟨-, -, h⟩ | ⟨htransmit, hinterrupt, h⟩ <;> rw [h]
  · exact hs.clearTransmit.issue
  · exact hs.clearInterrupt.issue
  · exact fun _ => ⟨hinterrupt, htransmit⟩

theorem IdleMeansNothingPending.transmitOrReadFlags {s : State} (hs : IdleMeansNothingPending s) (ok : Bool) :
    IdleMeansNothingPending (transmitOrReadFlags ok s) := by
  unfold Machine.transmitOrReadFlags
  split
  · exact hs.clearTransmit.issue
  · exact hs.issue

theorem IdleMeansNothingPending.afterSnapshot {s : State} (hs : IdleMeansNothingPending s) (ok : Bool) :
    IdleMeansNothingPending (afterSnapshot ok s) := by
  unfold Machine.afterSnapshot
  split_ifs
  · exact hs.issue
  · exact hs.issue
  · exact hs.issue
  · exact hs.atQuiescentPoint ok

theorem IdleMeansNothingPending.completeReadRxBuf0 {s : State} (hs : IdleMeansNothingPending s)
    (resp : List Byte) (ok al : Bool) : IdleMeansNothingPending (completeReadRxBuf0 resp ok al s) := by
  unfold Machine.completeReadRxBuf0
  dsimp only
  split
  · exact hs.deliver.issue
  · exact hs.deliver.transmitOrReadFlags ok

/-- Every completion rule of the chain keeps R34's implication. -/
theorem IdleMeansNothingPending.completeChain {s : State} (hs : IdleMeansNothingPending s) (c : ChainCmd)
    (resp : List Byte) (ok al : Bool) : IdleMeansNothingPending (completeChain c resp ok al s) := by
  cases c with
  | readFlags => exact (idleMeansNothingPending_of_gate_eq hs (takeSnapshot_gate s resp)).afterSnapshot ok
  | readRxBuf0 => exact hs.completeReadRxBuf0 resp ok al
  | readRxBuf1 => exact hs.deliver.transmitOrReadFlags ok
  | clearStatusFlags => exact idleMeansNothingPending_of_gate_eq hs (completeClearStatusFlags_gate ..)
  | clearErrorFlags => exact (idleMeansNothingPending_of_gate_eq hs (countOverflow_gate s)).issue
  | loadTransmitBuffer => exact hs.issue
  | requestSend => exact hs.issue

/-! ### The gate's entry points -/

/-- Rules R100, R101: an interrupt is taken with the block busy, before or from now on. -/
theorem takeInterrupt_busy (ok : Bool) (s : State) : (takeInterrupt ok s).busy = true := by
  unfold takeInterrupt
  split
  · assumption
  · exact issue_busy ..

/-- Rule R104: a request is accepted with the block busy, before or from now on. -/
theorem acceptRequest_busy (f : Frame) (ok : Bool) (s : State) : (acceptRequest f ok s).busy = true := by
  unfold acceptRequest
  split
  · assumption
  · exact issue_busy ..

/-! ### Every instruction and every step -/

/-- Every instruction with a next state keeps R34's implication, from every state. -/
theorem IdleMeansNothingPending.exec {i : Instr} {s t : State} (hs : IdleMeansNothingPending s)
    (h : exec i s = .next t) : IdleMeansNothingPending t := by
  cases hchannel : (encode i).channel with
  | bus =>
    obtain ⟨f, hf⟩ := exec_of_bus hchannel s
    cases hf.symm.trans h
    exact idleMeansNothingPending_of_gate_eq hs (onChip_gate ..)
  | stimulus =>
    cases i with
    | write _ _ | read _ _ | bitModify _ _ _ | loadTxBuffer0 _ _ | loadTxBuffer1 _ _ | loadTxBuffer2 _ _
    | requestToSend0 | requestToSend1 | requestToSend2 | readRxBuffer0 _ | readRxBuffer1 _ | reset => cases hchannel
    | notifyInterrupt ok =>
      obtain rfl := Host.Outcome.next.inj h
      split
      · exact idleMeansNothingPending_of_busy (takeInterrupt_busy ok s)
      · exact hs
    | requestTransmit f ok =>
      obtain rfl := Host.Outcome.next.inj h
      split_ifs
      · exact idleMeansNothingPending_of_gate_eq hs (emit_gate ..)
      · exact idleMeansNothingPending_of_gate_eq hs (emit_gate ..)
      · exact idleMeansNothingPending_of_gate_eq hs (emit_gate ..)
      · exact idleMeansNothingPending_of_busy (acceptRequest_busy f ok s)
    | busComplete resp ok al tm =>
      have hcleared : IdleMeansNothingPending { s with outstanding := none } := hs
      rcases busComplete_next_cases h with ⟨c, -, rfl⟩ | ⟨q, -, rfl⟩
      · exact hcleared.completeChain c resp ok al
      · exact idleMeansNothingPending_of_gate_eq hcleared (completeInit_gate ..)
    | probe ok =>
      obtain rfl := Host.Outcome.next.inj h
      split
      · exact hs.issueInit
      · exact hs
    | start mode ok =>
      have henabled : IdleMeansNothingPending (emit .transceiverEnable { s with mode := mode }) := hs
      obtain rfl := Host.Outcome.next.inj h
      split
      · exact henabled.issueInit
      · exact hs
    | stop =>
      obtain ⟨-, rfl⟩ := stop_next h
      split
      · exact fun _ => ⟨rfl, rfl⟩
      · exact hs

/-- R34's implication is inductive: every step keeps it, with no other part of the invariant. -/
theorem IdleMeansNothingPending.step {s t : State} (hs : IdleMeansNothingPending s) (h : step s = .next t) :
    IdleMeansNothingPending t := by
  rcases step_next_cases h with ⟨-, rfl⟩ | ⟨e, later, -, rfl⟩ | ⟨m, later, i, -, -, hexec⟩
  · exact hs
  · exact hs
  · have htaken : IdleMeansNothingPending { s with inbox := later } := hs
    exact htaken.exec hexec

/-- Settles O12: at power-on no flag is set, and every step keeps the implication: `busy` is cleared only by Stop and at the
quiescent point, where neither flag is pending, and a flag is set only while the block is busy. -/
theorem idleImpliesNothingPending : Obligations.IdleImpliesNothingPending :=
  ⟨fun _ _ _ => ⟨rfl, rfl⟩, fun _ _ hs h => hs.step h⟩

end Sys2Proof.Machine

/-! ## The chain's submissions

The commands of rule R109 as submissions, and the completion rules of the transmit path and of an empty snapshot as the
submissions they end in. -/

namespace Sys2Proof.Machine

/-- Settles O6: rule R109's table is how `command` is defined; this evaluates the named opcodes and addresses to bytes. -/
theorem chainCommandBytes : Obligations.ChainCommandBytes :=
  fun _ => ⟨rfl, rfl, rfl, rfl, rfl, rfl, rfl⟩

theorem issue_readFlags (ok : Bool) (s : State) :
    issue .readFlags ok s = submitted .readFlags readFlagsBytes ok s :=
  issue_of_command ok rfl

theorem issue_requestSend (ok : Bool) (s : State) : issue .requestSend ok s = submitted .requestSend [0x81] ok s :=
  issue_of_command ok rfl

theorem issue_loadTransmitBuffer {s : State} {f : Frame} (hslot : s.outgoingFrame = some f) (ok : Bool) :
    issue .loadTransmitBuffer ok s
      = submitted .loadTransmitBuffer (encodeTx s.cfg.txStdRtrInDlc f) ok s :=
  issue_of_command ok (by simp [command, hslot])

/-- Rules R56, R108: an accepted submission awaits a response of its command's length. -/
theorem awaitsChain_submitted (c : ChainCmd) {cmd resp : List Byte} (s : State) (h : cmd.length = resp.length) :
    AwaitsChain c resp (submitted c cmd true s) :=
  ⟨rfl, congrArg some h⟩

/-- Rule R137. -/
theorem exec_busComplete_loadTransmitBuffer {s : State} {resp : List Byte}
    (h : AwaitsChain .loadTransmitBuffer resp s) (ok al tm : Bool) :
    exec (.busComplete resp ok al tm) s = .next (submitted .requestSend [0x81] ok { s with outstanding := none }) := by
  rw [exec_busComplete_chain h, completeChain, completeLoadTransmitBuffer, issue_requestSend]

/-- Rule R139. -/
theorem exec_busComplete_requestSend {s : State} {resp : List Byte}
    (h : AwaitsChain .requestSend resp s) (ok al tm : Bool) :
    exec (.busComplete resp ok al tm) s
      = .next (submitted .readFlags readFlagsBytes ok { s with outstanding := none }) := by
  rw [exec_busComplete_chain h, completeChain, completeRequestSend, issue_readFlags]

/-- Rules R137, R139: a transmit whose submissions are accepted goes on to RequestSend and to ReadFlags; it leaves the pending
flags and the slot alone. -/
theorem transmitPath_accepted {t : State} {loaded resp : List Byte} (h : AwaitsChain .loadTransmitBuffer loaded t)
    (hresp : resp.length = 4) (x : Byte) (al tm : Bool) :
    ∃ u v, exec (.busComplete loaded true al tm) t = .next u ∧ u.ctl = .wait .requestSend
      ∧ u.interruptPending = t.interruptPending
      ∧ exec (.busComplete [x] true al tm) u = .next v ∧ AwaitsChain .readFlags resp v
      ∧ v.interruptPending = t.interruptPending ∧ v.transmitPending = t.transmitPending
      ∧ v.outgoingFrame = t.outgoingFrame := by
  have hsend := exec_busComplete_loadTransmitBuffer h true al tm
  have hread := exec_busComplete_requestSend (resp := [x])
    (awaitsChain_submitted .requestSend (cmd := [0x81]) { t with outstanding := none } rfl) true al tm
  exact ⟨_, _, hsend, rfl, rfl, hread, awaitsChain_submitted _ _ hresp.symm, rfl, rfl, rfl⟩

/-! ### The quiescent point (R106) -/

/-- Rule R122: an empty snapshot has no flag to serve. -/
theorem afterSnapshot_of_empty {s : State} (h : s.statusBits = 0x00) (ok : Bool) :
    afterSnapshot ok s = atQuiescentPoint ok s := by
  simp [afterSnapshot, State.rx0Flag, State.rx1Flag, State.anyStatus, anySet, h]

/-- Rules R106, R122: an empty status byte brings the chain to the quiescent point. -/
theorem exec_busComplete_emptySnapshot {s : State} {r0 r1 ef : Byte}
    (h : AwaitsChain .readFlags [r0, r1, 0x00, ef] s) (ok al tm : Bool) :
    exec (.busComplete [r0, r1, 0x00, ef] ok al tm) s
      = .next (atQuiescentPoint ok { s with outstanding := none, statusBits := 0x00, errorFlags := ef }) := by
  rw [exec_busComplete_chain h, completeChain, completeReadFlags, afterSnapshot_of_empty rfl]
  rfl

/-- Rule R106: a pending transmit with a held frame goes first. -/
theorem exec_emptySnapshot_of_transmit {s : State} {f : Frame} {r0 r1 ef : Byte}
    (h : AwaitsChain .readFlags [r0, r1, 0x00, ef] s) (htransmit : s.transmitPending = true)
    (hslot : s.outgoingFrame = some f) (ok al tm : Bool) :
    exec (.busComplete [r0, r1, 0x00, ef] ok al tm) s
      = .next (submitted .loadTransmitBuffer (encodeTx s.cfg.txStdRtrInDlc f) ok
          { s with outstanding := none, statusBits := 0x00, errorFlags := ef, transmitPending := false }) := by
  rw [exec_busComplete_emptySnapshot h, atQuiescentPoint, if_pos htransmit, issue_loadTransmitBuffer]
  exact hslot

/-- Rule R106: with no transmit pending, a pending interrupt costs a ReadFlags. -/
theorem exec_emptySnapshot_of_interrupt {s : State} {r0 r1 ef : Byte}
    (h : AwaitsChain .readFlags [r0, r1, 0x00, ef] s) (htransmit : s.transmitPending = false)
    (hinterrupt : s.interruptPending = true) (ok al tm : Bool) :
    exec (.busComplete [r0, r1, 0x00, ef] ok al tm) s
      = .next (submitted .readFlags readFlagsBytes ok
          { s with outstanding := none, statusBits := 0x00, errorFlags := ef, interruptPending := false }) := by
  rw [exec_busComplete_emptySnapshot h, atQuiescentPoint, if_neg (by simp [htransmit]), if_pos hinterrupt,
    issue_readFlags]

/-- Rules R106, R228: with nothing pending the chain returns to rest. -/
theorem exec_emptySnapshot_of_nothing_pending {s : State} {r0 r1 ef : Byte}
    (h : AwaitsChain .readFlags [r0, r1, 0x00, ef] s) (htransmit : s.transmitPending = false)
    (hinterrupt : s.interruptPending = false) (ok al tm : Bool) :
    exec (.busComplete [r0, r1, 0x00, ef] ok al tm) s
      = .next { s with outstanding := none, statusBits := 0x00, errorFlags := ef, busy := false, ctl := .idle } := by
  rw [exec_busComplete_emptySnapshot h, atQuiescentPoint, if_neg (by simp [htransmit]), if_neg (by simp [hinterrupt])]

end Sys2Proof.Machine

/-! ## Interrupts while a chain runs (R110, R111)

`interruptPending` is kept by every completion except at the quiescent point, which serves a pending transmit first. -/

namespace Sys2Proof.Machine

theorem interruptPending_eq_of_gate_eq {s t : State} (h : t.gate = s.gate) :
    t.interruptPending = s.interruptPending :=
  congrArg (·.2.1) h

/-- Rule R107 consumes a pending transmit only. -/
@[simp] theorem transmitOrReadFlags_interruptPending (ok : Bool) (s : State) :
    (transmitOrReadFlags ok s).interruptPending = s.interruptPending := by
  rcases transmitOrReadFlags_cases ok s with ⟨f, -, -, h⟩ | ⟨-, h⟩ <;> rw [h] <;> simp

/-- Rule R122: a snapshot with a status bit set is served without passing the quiescent point. -/
theorem afterSnapshot_interruptPending {s : State} (h : s.statusBits ≠ 0x00) (ok : Bool) :
    (afterSnapshot ok s).interruptPending = s.interruptPending := by
  have hstatus : s.anyStatus = true := bne_iff_ne.mpr h
  unfold afterSnapshot
  rw [if_pos hstatus]
  split_ifs <;> exact issue_interruptPending ..

theorem completeReadRxBuf0_interruptPending (resp : List Byte) (ok al : Bool) (s : State) :
    (completeReadRxBuf0 resp ok al s).interruptPending = s.interruptPending := by
  unfold completeReadRxBuf0
  dsimp only
  split <;> simp

/-- Every completion rule of the chain keeps `interruptPending`, except that of ReadFlags with an empty status byte. -/
theorem completeChain_interruptPending {c : ChainCmd} {resp : List Byte} (h : c ≠ .readFlags ∨ respByte resp 2 ≠ 0x00)
    (ok al : Bool) (s : State) : (completeChain c resp ok al s).interruptPending = s.interruptPending := by
  cases c with
  | readFlags =>
    have hstatus : (takeSnapshot resp s).statusBits ≠ 0x00 := h.resolve_left (· rfl)
    exact afterSnapshot_interruptPending hstatus ok
  | readRxBuf0 => exact completeReadRxBuf0_interruptPending resp ok al s
  | readRxBuf1 => simp [completeChain, completeReadRxBuf1]
  | clearStatusFlags => exact interruptPending_eq_of_gate_eq (completeClearStatusFlags_gate s ok)
  | clearErrorFlags =>
    exact (issue_interruptPending ..).trans (interruptPending_eq_of_gate_eq (countOverflow_gate s))
  | loadTransmitBuffer => exact issue_interruptPending ..
  | requestSend => exact issue_interruptPending ..

/-- Rule R140: the same of the stimulus, in `Wait(c)`. -/
theorem busComplete_interruptPending {s t : State} {c : ChainCmd} {resp : List Byte} {ok al tm : Bool}
    (hctl : s.ctl = .wait c) (hkeeps : c ≠ .readFlags ∨ respByte resp 2 ≠ 0x00)
    (h : exec (.busComplete resp ok al tm) s = .next t) : t.interruptPending = s.interruptPending := by
  rcases busComplete_next_cases h with ⟨d, hd, rfl⟩ | ⟨q, hq, -⟩
  · obtain rfl : d = c := Ctl.wait.inj (hd.symm.trans hctl)
    exact completeChain_interruptPending hkeeps ..
  · cases hq.symm.trans hctl

/-- Rules R100, R227: while a chain runs, a notification sets the flag and asks nothing of the transport. -/
theorem exec_notifyInterrupt_of_busy {s : State} (hrunning : s.ctl.running = true) (hbusy : s.busy = true) (ok : Bool) :
    exec (.notifyInterrupt ok) s = .next { s with interruptPending := true } := by
  simp [exec, execNotifyInterrupt, takeInterrupt, hrunning, hbusy]

/-- Settles O18: a second notification finds the flag already set; only the quiescent point takes it, with one ReadFlags; and
the quiescent point after that one finds neither flag and ends the chain. -/
theorem twoInterruptsCostOneCycle : Obligations.TwoInterruptsCostOneCycle := by
  refine ⟨?notified, ?kept, ?repolled⟩
  case notified =>
    intro s a b hrunning hbusy
    exact ⟨exec_notifyInterrupt_of_busy hrunning hbusy a,
      exec_notifyInterrupt_of_busy (s := { s with interruptPending := true }) hrunning hbusy b⟩
  case kept => exact fun _ _ _ _ _ _ _ hctl hkeeps h => busComplete_interruptPending hctl hkeeps h
  case repolled =>
    intro s r0 r1 ef r0' r1' ef' ok al tm hs hinterrupt htransmit
    have hrepoll := exec_emptySnapshot_of_interrupt hs htransmit hinterrupt true al tm
    have hreading := awaitsChain_submitted .readFlags (cmd := readFlagsBytes) (resp := [r0', r1', 0x00, ef'])
      { s with outstanding := none, statusBits := 0x00, errorFlags := ef, interruptPending := false } rfl
    have hrest := exec_emptySnapshot_of_nothing_pending hreading htransmit rfl ok al tm
    exact ⟨_, _, hrepoll, rfl, rfl, rfl, hrest, rfl, rfl, rfl, rfl⟩

/-- Settles O23: the quiescent point serves the transmit first; the three submissions after it leave `interruptPending` and the
slot alone; the next quiescent point finds the interrupt only. -/
theorem transmitGoesBeforeRepoll : Obligations.TransmitGoesBeforeRepoll := by
  intro s f r0 r1 ef x a0 a1 ef' loaded al tm hs hinterrupt htransmit hslot hlength
  have hload := exec_emptySnapshot_of_transmit hs htransmit hslot true al tm
  have hloading := awaitsChain_submitted .loadTransmitBuffer
    { s with outstanding := none, statusBits := 0x00, errorFlags := ef, transmitPending := false } hlength.symm
  obtain ⟨u, v, hsend, huctl, hukept, hread, hreading, hvkept, hvtransmit, hvslot⟩ :=
    transmitPath_accepted hloading (resp := [a0, a1, 0x00, ef']) rfl x al tm
  have hrepoll := exec_emptySnapshot_of_interrupt hreading hvtransmit (hvkept.trans hinterrupt) true al tm
  exact ⟨_, u, v, _, hload, rfl, hinterrupt, rfl, hsend, huctl, hukept.trans hinterrupt, hread, hreading.1,
    hvkept.trans hinterrupt, hrepoll, rfl, rfl, hvslot.trans hslot⟩

end Sys2Proof.Machine

/-! ## The transmit path (R137, R139) -/

namespace Sys2Proof.Machine

/-- Settles O31: each of the two completions has one successor, which submits a command that reads no state, so neither the
response nor the transport's verdict selects a case. -/
theorem transmitPathCompletions : Obligations.TransmitPathCompletions := by
  intro s resp ok al tm
  constructor
  · intro hload
    exact exec_busComplete_loadTransmitBuffer hload ok al tm
  · intro hrequest
    exact exec_busComplete_requestSend hrequest ok al tm

end Sys2Proof.Machine

/-! ## The received identifier (R160 to R163)

The identifier's value as the spec's formulas on naturals, and as a concatenation of bit fields: the concatenation's width is
the bound of R161 and R162, and it is what encoding inverts. -/

namespace Sys2Proof.Machine

/-- A byte shifted within a 32-bit word loses no bit. -/
theorem toNat_zeroExtend_shiftLeft (b : Byte) {k : Nat} (hk : k ≤ 24) :
    (b.zeroExtend 32 <<< k).toNat = b.toNat <<< k := by
  have hbyte : b.toNat < 2 ^ (32 - k) := b.isLt.trans_le (Nat.pow_le_pow_right (by decide) (by omega))
  have hfit : b.toNat <<< k < 2 ^ 32 := by
    simpa only [Nat.sub_add_cancel (hk.trans (by decide : 24 ≤ 32))] using Nat.shiftLeft_lt (m := k) hbyte
  rw [BitVec.toNat_shiftLeft, BitVec.toNat_setWidth, Nat.mod_eq_of_lt (b.isLt.trans (by decide)), Nat.mod_eq_of_lt hfit]

theorem toNat_zeroExtend (b : Byte) : (b.zeroExtend 32).toNat = b.toNat :=
  BitVec.toNat_setWidth_of_le (by decide)

/-- Rule R161, on naturals. -/
theorem toNat_rxExtendedId (b1 b2 b3 b4 : Byte) :
    (rxExtendedId b1 b2 b3 b4).toNat
      = b1.toNat <<< 21 ||| (b2.toNat &&& 0xE0) <<< 13 ||| (b2.toNat &&& 0x03) <<< 16 ||| b3.toNat <<< 8 ||| b4.toNat := by
  simp only [rxExtendedId, BitVec.toNat_or, toNat_zeroExtend_shiftLeft, toNat_zeroExtend, BitVec.toNat_and, Nat.reduceLeDiff]
  rfl

/-- Rule R162, on naturals. -/
theorem toNat_rxStandardId (b1 b2 : Byte) : (rxStandardId b1 b2).toNat = b1.toNat <<< 3 ||| b2.toNat >>> 5 := by
  simp only [rxStandardId, BitVec.toNat_or, toNat_zeroExtend_shiftLeft, toNat_zeroExtend, BitVec.toNat_ushiftRight,
    Nat.reduceLeDiff]

/-- Rule R161's field map: bits 4, 3 and 2 of byte 2 take no part. -/
def extendedIdBits (b1 b2 b3 b4 : Byte) : BitVec 29 := b1 ++ b2.extractLsb' 5 3 ++ b2.extractLsb' 0 2 ++ b3 ++ b4

/-- Rule R162's field map. -/
def standardIdBits (b1 b2 : Byte) : BitVec 11 := b1 ++ b2.extractLsb' 5 3

theorem toNat_and_0xE0 (b : Byte) : b.toNat &&& 0xE0 = (b.extractLsb' 5 3).toNat <<< 5 := by
  revert b; decide

theorem toNat_and_0x03 (b : Byte) : b.toNat &&& 0x03 = (b.extractLsb' 0 2).toNat := by
  revert b; decide

theorem toNat_shiftRight_5 (b : Byte) : b.toNat >>> 5 = (b.extractLsb' 5 3).toNat := by
  revert b; decide

theorem toNat_extendedIdBits (b1 b2 b3 b4 : Byte) :
    (extendedIdBits b1 b2 b3 b4).toNat = (rxExtendedId b1 b2 b3 b4).toNat := by
  rw [toNat_rxExtendedId, toNat_and_0xE0, toNat_and_0x03]
  simp only [extendedIdBits, BitVec.toNat_append, Nat.shiftLeft_or_distrib, ← Nat.shiftLeft_add]

theorem toNat_standardIdBits (b1 b2 : Byte) : (standardIdBits b1 b2).toNat = (rxStandardId b1 b2).toNat := by
  rw [toNat_rxStandardId, toNat_shiftRight_5, standardIdBits, BitVec.toNat_append]

theorem rxExtendedId_lt (b1 b2 b3 b4 : Byte) : (rxExtendedId b1 b2 b3 b4).toNat < 2 ^ 29 :=
  toNat_extendedIdBits b1 b2 b3 b4 ▸ BitVec.isLt _

theorem rxStandardId_lt (b1 b2 : Byte) : (rxStandardId b1 b2).toNat < 2 ^ 11 :=
  toNat_standardIdBits b1 b2 ▸ BitVec.isLt _

/-! ### What the format bit selects (R160) -/

theorem decodeRx_id_of_extended (resp : List Byte) (h : rxExtended (respByte resp 2) = true) :
    (decodeRx resp).id = rxExtendedId (respByte resp 1) (respByte resp 2) (respByte resp 3) (respByte resp 4) := if_pos h

theorem decodeRx_id_of_standard (resp : List Byte) (h : rxExtended (respByte resp 2) = false) :
    (decodeRx resp).id = rxStandardId (respByte resp 1) (respByte resp 2) := if_neg (by simp [h])

theorem rxRemote_of_extended {b2 b5 : Byte} (h : rxExtended b2 = true) : rxRemote b2 b5 = b5.getLsbD 6 := if_pos h

theorem rxRemote_of_standard {b2 b5 : Byte} (h : rxExtended b2 = false) : rxRemote b2 b5 = b2.getLsbD 4 :=
  if_neg (by simp [h])

/-- Settles O40: the format bit selects the identifier's formula and the remote flag's bit; the bounds are the widths of the
field maps. -/
theorem decodedIdentifierAndFlags : Obligations.DecodedIdentifierAndFlags := by
  rintro resp b0 b1 b2 b3 b4 b5 rest rfl
  refine ⟨rfl, ?extended, ?standard⟩
  case extended =>
    intro hext
    rw [decodeRx_id_of_extended (b0 :: b1 :: b2 :: b3 :: b4 :: b5 :: rest) hext]
    exact ⟨toNat_rxExtendedId b1 b2 b3 b4, rxExtendedId_lt b1 b2 b3 b4, rxRemote_of_extended hext⟩
  case standard =>
    intro hstd
    rw [decodeRx_id_of_standard (b0 :: b1 :: b2 :: b3 :: b4 :: b5 :: rest) hstd]
    exact ⟨toNat_rxStandardId b1 b2, rxStandardId_lt b1 b2, rxRemote_of_standard hstd⟩

end Sys2Proof.Machine

/-! ## The codec's round trip (R171)

Decoding inverts encoding field by field: each lemma reads one field of the frame back from the bytes that carry it. Only the
remote flag depends on `TX_STD_RTR_IN_DLC`. -/

namespace Sys2Proof.Machine

/-! ### Well-formed frames (R32) -/

section WellFormed
variable {f : Frame}

/-- R32's four conditions, those on the data over its bytes. -/
theorem wellFormed_iff :
    f.wellFormed = true ↔
      f.len ≤ 8 ∧ (f.id.toNat < if f.ext then 2 ^ 29 else 2 ^ 11) ∧ (∀ b ∈ f.data.toList.drop f.len, b = 0)
        ∧ (f.rtr = true → ∀ b ∈ f.data.toList, b = 0) := by
  simp only [Frame.wellFormed, Bool.and_eq_true, Bool.or_eq_true, Bool.not_eq_true', decide_eq_true_eq, List.all_eq_true,
    beq_iff_eq, and_assoc, ← Bool.not_eq_true, ← imp_iff_not_or]

variable (hf : f.wellFormed = true)
include hf

theorem len_le_of_wellFormed : f.len ≤ 8 := by
  obtain ⟨hlen, -, -, -⟩ := wellFormed_iff.mp hf
  exact hlen

theorem id_lt_of_wellFormed : f.id.toNat < if f.ext then 2 ^ 29 else 2 ^ 11 := by
  obtain ⟨-, hid, -, -⟩ := wellFormed_iff.mp hf
  exact hid

theorem data_eq_zero_of_len_le {i : Nat} (hi : i < 8) (hlen : f.len ≤ i) : f.data[i] = 0 := by
  obtain ⟨-, -, hpast, -⟩ := wellFormed_iff.mp hf
  exact hpast _ (List.mem_drop_iff_getElem.mpr ⟨i - f.len, by simp; omega, by simp [hlen]⟩)

theorem data_eq_zero_of_rtr (hrtr : f.rtr = true) {i : Nat} (hi : i < 8) : f.data[i] = 0 := by
  obtain ⟨-, -, -, hremote⟩ := wellFormed_iff.mp hf
  exact hremote hrtr _ (by simp)

end WellFormed

/-! ### The header's bytes (R167 to R169) -/

/-- Byte 2 of an extended header. -/
def extendedByte2 (id : Word32) : Byte := (lowByte ((id >>> 18) &&& 0x07) <<< 5) ||| 0x08 ||| lowByte ((id >>> 16) &&& 0x03)

/-- Byte 2 of a standard header, with the remote flag it carries. -/
def standardByte2 (id : Word32) (remote : Bool) : Byte := (lowByte (id &&& 0x07) <<< 5) ||| (if remote then 0x10 else 0x00)

/-- The length byte, with the remote flag it carries. -/
def lengthByte (len : Nat) (remote : Bool) : Byte := BitVec.ofNat 8 len ||| (if remote then 0x40 else 0x00)

theorem extendedByte2_high (id : Word32) : (extendedByte2 id).extractLsb' 5 3 = id.extractLsb' 18 3 := by
  ext i hi
  interval_cases i <;> simp [extendedByte2, lowByte]

theorem extendedByte2_low (id : Word32) : (extendedByte2 id).extractLsb' 0 2 = id.extractLsb' 16 2 := by
  ext i hi
  interval_cases i <;> simp [extendedByte2, lowByte]

theorem standardByte2_high (id : Word32) (remote : Bool) :
    (standardByte2 id remote).extractLsb' 5 3 = id.extractLsb' 0 3 := by
  ext i hi
  cases remote <;> interval_cases i <;> simp [standardByte2, lowByte]

@[simp] theorem rxExtended_extendedByte2 (id : Word32) : rxExtended (extendedByte2 id) = true := by
  simp [rxExtended, extendedByte2]

@[simp] theorem rxExtended_standardByte2 (id : Word32) (remote : Bool) : rxExtended (standardByte2 id remote) = false := by
  cases remote <;> simp [rxExtended, standardByte2]

theorem standardByte2_remote (id : Word32) (remote : Bool) : (standardByte2 id remote).getLsbD 4 = remote := by
  cases remote <;> simp [standardByte2]

theorem lengthByte_remote {len : Nat} (h : len ≤ 8) (remote : Bool) : (lengthByte len remote).getLsbD 6 = remote := by
  interval_cases len <;> cases remote <;> rfl

theorem rxLength_lengthByte {len : Nat} (h : len ≤ 8) (remote : Bool) : rxLength (lengthByte len remote) = len := by
  interval_cases len <;> cases remote <;> rfl

/-! ### The identifier's bytes -/

theorem lowByte_eq_extractLsb' (v : Word32) : lowByte v = v.extractLsb' 0 8 := rfl

theorem lowByte_ushiftRight (v : Word32) (k : Nat) : lowByte (v >>> k) = v.extractLsb' k 8 := rfl

/-- The bits R161 reads from R167's bytes are bits 28 to 0 of the identifier. -/
theorem extendedIdBits_encoded (id : Word32) :
    extendedIdBits (lowByte (id >>> 21)) (extendedByte2 id) (lowByte (id >>> 8)) (lowByte id) = id.extractLsb' 0 29 := by
  rw [extendedIdBits, extendedByte2_high, extendedByte2_low, lowByte_ushiftRight, lowByte_ushiftRight,
    lowByte_eq_extractLsb']
  rw [BitVec.extractLsb'_append_extractLsb'_eq_extractLsb' (rfl : 21 = 18 + 3),
    BitVec.extractLsb'_append_extractLsb'_eq_extractLsb' (rfl : 18 = 16 + 2),
    BitVec.extractLsb'_append_extractLsb'_eq_extractLsb' (rfl : 16 = 8 + 8),
    BitVec.extractLsb'_append_extractLsb'_eq_extractLsb' (rfl : 8 = 0 + 8)]

/-- The bits R162 reads from R168's bytes are bits 10 to 0 of the identifier. -/
theorem standardIdBits_encoded (id : Word32) (remote : Bool) :
    standardIdBits (lowByte (id >>> 3)) (standardByte2 id remote) = id.extractLsb' 0 11 := by
  rw [standardIdBits, standardByte2_high, lowByte_ushiftRight]
  exact BitVec.extractLsb'_append_extractLsb'_eq_extractLsb' (rfl : 3 = 0 + 3)

theorem toNat_extractLsb'_of_lt {id : Word32} {k : Nat} (h : id.toNat < 2 ^ k) : (id.extractLsb' 0 k).toNat = id.toNat := by
  rw [BitVec.extractLsb'_toNat, Nat.shiftRight_zero, Nat.mod_eq_of_lt h]

theorem rxExtendedId_encoded {id : Word32} (h : id.toNat < 2 ^ 29) :
    rxExtendedId (lowByte (id >>> 21)) (extendedByte2 id) (lowByte (id >>> 8)) (lowByte id) = id :=
  BitVec.eq_of_toNat_eq (by rw [← toNat_extendedIdBits, extendedIdBits_encoded, toNat_extractLsb'_of_lt h])

theorem rxStandardId_encoded {id : Word32} (h : id.toNat < 2 ^ 11) (remote : Bool) :
    rxStandardId (lowByte (id >>> 3)) (standardByte2 id remote) = id :=
  BitVec.eq_of_toNat_eq (by rw [← toNat_standardIdBits, standardIdBits_encoded, toNat_extractLsb'_of_lt h])

/-! ### The header read back -/

section Header
variable (inDlc : Bool) {f : Frame}

theorem txHeader_of_extended (h : f.ext = true) :
    txHeader inDlc f = { h1 := lowByte (f.id >>> 21), h2 := extendedByte2 f.id, h3 := lowByte (f.id >>> 8), h4 := lowByte f.id,
                         h5 := lengthByte f.len f.rtr } := if_pos h

theorem txHeader_of_standard (h : f.ext = false) :
    txHeader inDlc f = { h1 := lowByte (f.id >>> 3), h2 := standardByte2 f.id (f.rtr && !inDlc), h3 := 0x00, h4 := 0x00,
                         h5 := lengthByte f.len (f.rtr && inDlc) } := if_neg (by simp [h])

theorem rxExtended_txHeader (f : Frame) : rxExtended (txHeader inDlc f).h2 = f.ext := by
  cases h : f.ext with
  | true => simp [txHeader_of_extended inDlc h]
  | false => simp [txHeader_of_standard inDlc h]

theorem rxRemote_txHeader (hlen : f.len ≤ 8) :
    rxRemote (txHeader inDlc f).h2 (txHeader inDlc f).h5 = (f.rtr && (f.ext || !inDlc)) := by
  cases h : f.ext with
  | true =>
    rw [txHeader_of_extended inDlc h, rxRemote_of_extended (rxExtended_extendedByte2 _), lengthByte_remote hlen,
      Bool.true_or, Bool.and_true]
  | false =>
    rw [txHeader_of_standard inDlc h, rxRemote_of_standard (rxExtended_standardByte2 _ _), standardByte2_remote,
      Bool.false_or]

theorem rxLength_txHeader (hlen : f.len ≤ 8) : rxLength (txHeader inDlc f).h5 = f.len := by
  cases h : f.ext with
  | true => simp [txHeader_of_extended inDlc h, rxLength_lengthByte hlen]
  | false => simp [txHeader_of_standard inDlc h, rxLength_lengthByte hlen]

end Header

/-! ### The response of an encoded frame -/

section Response
variable (inDlc : Bool)

/-- The pad of R171 reads as the bytes past the length. -/
theorem respByte_encoded_data (f : Frame) {i : Nat} (hi : i < 8) :
    respByte (rxOf (encodeTx inDlc f)) (6 + i) = if i < f.len then f.data[i] else 0 := by
  rw [Nat.add_comm]
  show (f.data.toList.take f.len ++ List.replicate _ 0).getD i 0 = _
  split_ifs with hshort
  · simp [List.getD, List.getElem?_append, hshort, hi]
  · simp [List.getD, List.getElem?_append, hshort, hi]

theorem decodeRx_encoded_ext (f : Frame) : (decodeRx (rxOf (encodeTx inDlc f))).ext = f.ext :=
  rxExtended_txHeader inDlc f

variable {f : Frame} (hf : f.wellFormed = true)
include hf

theorem decodeRx_encoded_id : (decodeRx (rxOf (encodeTx inDlc f))).id = f.id := by
  have hid := id_lt_of_wellFormed hf
  have hformat : rxExtended (respByte (rxOf (encodeTx inDlc f)) 2) = f.ext := rxExtended_txHeader inDlc f
  cases hext : f.ext with
  | true =>
    rw [decodeRx_id_of_extended _ (hformat.trans hext)]
    show rxExtendedId (txHeader inDlc f).h1 (txHeader inDlc f).h2 (txHeader inDlc f).h3 (txHeader inDlc f).h4 = f.id
    rw [txHeader_of_extended inDlc hext]
    exact rxExtendedId_encoded (by simpa [hext] using hid)
  | false =>
    rw [decodeRx_id_of_standard _ (hformat.trans hext)]
    show rxStandardId (txHeader inDlc f).h1 (txHeader inDlc f).h2 = f.id
    rw [txHeader_of_standard inDlc hext]
    exact rxStandardId_encoded (by simpa [hext] using hid) _

/-- The one field that depends on the parameter. -/
theorem decodeRx_encoded_rtr : (decodeRx (rxOf (encodeTx inDlc f))).rtr = (f.rtr && (f.ext || !inDlc)) :=
  rxRemote_txHeader inDlc (len_le_of_wellFormed hf)

theorem decodeRx_encoded_len : (decodeRx (rxOf (encodeTx inDlc f))).len = f.len :=
  rxLength_txHeader inDlc (len_le_of_wellFormed hf)

/-- A remote frame and the bytes past the length are zero on both sides. -/
theorem rxDataByte_encoded {i : Nat} (hi : i < 8) : rxDataByte (rxOf (encodeTx inDlc f)) i = f.data[i] := by
  have hlen := len_le_of_wellFormed hf
  have hremote : rxRemote (respByte (rxOf (encodeTx inDlc f)) 2) (respByte (rxOf (encodeTx inDlc f)) 5)
      = (f.rtr && (f.ext || !inDlc)) := rxRemote_txHeader inDlc hlen
  have hlength : rxLength (respByte (rxOf (encodeTx inDlc f)) 5) = f.len := rxLength_txHeader inDlc hlen
  rw [rxDataByte, hremote, hlength, respByte_encoded_data inDlc f hi]
  split_ifs with hzero hshort
  · exact (data_eq_zero_of_rtr hf (Bool.and_elim_left hzero) hi).symm
  · rfl
  · exact (data_eq_zero_of_len_le hf hi (Nat.not_lt.mp hshort)).symm

theorem decodeRx_encoded_data : (decodeRx (rxOf (encodeTx inDlc f))).data = f.data := by
  ext i hi
  rw [← rxDataByte_encoded inDlc hf hi]
  interval_cases i <;> rfl

end Response

theorem frame_eq_of_fields {f g : Frame} (hid : f.id = g.id) (hext : f.ext = g.ext) (hrtr : f.rtr = g.rtr)
    (hlen : f.len = g.len) (hdata : f.data = g.data) : f = g := by
  cases f; cases g; congr

/-- Settles O44: every field is read back, the remote flag only where the parameter leaves it in the byte decoding looks at. -/
theorem codecRoundTrip : Obligations.CodecRoundTrip := by
  constructor
  · intro f hf
    have hrtr : (decodeRx (rxOf (encodeTx false f))).rtr = f.rtr := by simp [decodeRx_encoded_rtr false hf]
    exact frame_eq_of_fields (decodeRx_encoded_id false hf) (decodeRx_encoded_ext false f) hrtr
      (decodeRx_encoded_len false hf) (decodeRx_encoded_data false hf)
  · intro f hf hstd hrtr heq
    have hlost := decodeRx_encoded_rtr true hf
    rw [heq, hrtr, hstd] at hlost
    cases hlost

end Sys2Proof.Machine

/-! ## ProbeFailed is terminal (R184)

In `ProbeFailed` the block is not Running and waits for no completion, so each stimulus answers at once, and none of the answers
moves the FSM. -/

namespace Sys2Proof.Machine

/-! ### Stimuli that find nothing to do -/

/-- Rule R141: outside `Wait(_)` and `Init(_)` a completion has no step. -/
theorem busComplete_ne_next_of_not_awaiting {s : State} (h : s.ctl.awaiting = false) (resp : List Byte) (ok al tm : Bool)
    (t : State) : exec (.busComplete resp ok al tm) s ≠ .next t := by
  intro hnext
  rcases busComplete_next_cases hnext with ⟨c, hctl, -⟩ | ⟨q, hctl, -⟩
  · simp [hctl, Ctl.awaiting] at h
  · simp [hctl, Ctl.awaiting] at h

/-- Rule R101: outside Running an interrupt has no effect. -/
theorem exec_notifyInterrupt_of_not_running {s : State} (h : s.ctl.running = false) (ok : Bool) :
    exec (.notifyInterrupt ok) s = .next s := by
  simp [exec, execNotifyInterrupt, h]

/-- Rule R103: outside Running a request is only answered, and the frame's form is looked at first. -/
theorem exec_requestTransmit_of_not_running {s : State} (h : s.ctl.running = false) (f : Frame) (ok : Bool) :
    exec (.requestTransmit f ok) s = .next
      { s with out := s.out ++ [.txReply (if f.wellFormed then .rejectedNotRunning else .rejectedInvalid)] } := by
  cases hf : f.wellFormed <;> simp [exec, execRequestTransmit, emit, h, hf]

/-- Rule R180: Probe is legal in `Unprobed` only. -/
theorem exec_probe_of_ne_unprobed {s : State} (h : s.ctl ≠ .unprobed) (ok : Bool) : exec (.probe ok) s = .next s := by
  simp [exec, execProbe, h]

/-- Rule R186: Start is legal in `Off` only. -/
theorem exec_start_of_ne_off {s : State} (h : s.ctl ≠ .off) (m : Mode) (ok : Bool) : exec (.start m ok) s = .next s := by
  simp [exec, execStart, h]

/-- Rules R195, R196: with the block not Running and nothing outstanding, Stop has no effect. -/
theorem exec_stop_of_not_running {s : State} (hrunning : s.ctl.running = false) (hawaiting : s.ctl.awaiting = false) :
    exec .stop s = .next s := by
  cases hctl : s.ctl with
  | unprobed | probeFailed | off | fault _ => simp [exec, execStop, hctl]
  | idle | stalled _ => simp [hctl, Ctl.running] at hrunning
  | wait _ | init _ => simp [hctl, Ctl.awaiting] at hawaiting

/-! ### The FSM state after an instruction whose answer is known -/

theorem ctl_of_exec_eq {i : Instr} {s t u : State} {c : Ctl} (hanswer : exec i s = .next u) (hctl : u.ctl = c)
    (hnext : exec i s = .next t) : t.ctl = c := by
  rwa [Host.Outcome.next.inj (hnext.symm.trans hanswer)]

/-- Rule R241: no bus command moves the FSM. -/
theorem ctl_of_exec_bus {i : Instr} {s t : State} (hnext : exec i s = .next t) (hbus : (encode i).channel = .bus) :
    t.ctl = s.ctl := by
  obtain ⟨f, hf⟩ := exec_of_bus hbus s
  exact ctl_of_exec_eq hf (onChip_ctl ..) hnext

/-! ### The answers in ProbeFailed -/

section
variable {s : State} (h : s.ctl = .probeFailed)
include h

theorem running_of_probeFailed : s.ctl.running = false := by rw [h]; rfl

theorem awaiting_of_probeFailed : s.ctl.awaiting = false := by rw [h]; rfl

theorem exec_probe_of_probeFailed (ok : Bool) : exec (.probe ok) s = .next s :=
  exec_probe_of_ne_unprobed (by simp [h]) ok

theorem exec_start_of_probeFailed (m : Mode) (ok : Bool) : exec (.start m ok) s = .next s :=
  exec_start_of_ne_off (by simp [h]) m ok

theorem exec_stop_of_probeFailed : exec .stop s = .next s :=
  exec_stop_of_not_running (running_of_probeFailed h) (awaiting_of_probeFailed h)

/-- Rule R184: every instruction with a next state, of either channel, keeps `ProbeFailed`. -/
theorem exec_keeps_probeFailed {i : Instr} {t : State} (hnext : exec i s = .next t) : t.ctl = .probeFailed := by
  cases i with
  | write _ _ | read _ _ | bitModify _ _ _ | loadTxBuffer0 _ _ | loadTxBuffer1 _ _ | loadTxBuffer2 _ _
  | requestToSend0 | requestToSend1 | requestToSend2 | readRxBuffer0 _ | readRxBuffer1 _ | reset =>
    exact (ctl_of_exec_bus hnext rfl).trans h
  | notifyInterrupt ok =>
    exact ctl_of_exec_eq (exec_notifyInterrupt_of_not_running (running_of_probeFailed h) ok) h hnext
  | requestTransmit f ok =>
    exact ctl_of_exec_eq (exec_requestTransmit_of_not_running (running_of_probeFailed h) f ok) h hnext
  | busComplete resp ok al tm =>
    exact absurd hnext (busComplete_ne_next_of_not_awaiting (awaiting_of_probeFailed h) resp ok al tm t)
  | probe ok => exact ctl_of_exec_eq (exec_probe_of_probeFailed h ok) h hnext
  | start m ok => exact ctl_of_exec_eq (exec_start_of_probeFailed h m ok) h hnext
  | stop => exact ctl_of_exec_eq (exec_stop_of_probeFailed h) h hnext

end

/-- Settles O47: each stimulus by its own answer in `ProbeFailed`, and from these answers no instruction leaves the state. -/
theorem probeFailedIsTerminal : Obligations.ProbeFailedIsTerminal :=
  fun _ h =>
    ⟨fun _ _ hnext => exec_keeps_probeFailed h hnext,
      busComplete_ne_next_of_not_awaiting (awaiting_of_probeFailed h),
      exec_notifyInterrupt_of_not_running (running_of_probeFailed h),
      exec_probe_of_probeFailed h, exec_start_of_probeFailed h, exec_stop_of_probeFailed h,
      exec_requestTransmit_of_not_running (running_of_probeFailed h)⟩

end Sys2Proof.Machine

/-! ## What no instruction changes (R241, R242)

The parameters and the inputs to come are read by the operations and written by none; and every instruction has a step or a named
fault, never a refusal. -/

namespace Sys2Proof.Machine

/-- What an instruction is given and leaves alone: the parameters and the inputs to come. -/
def State.given (s : State) : Config × List Input := (s.cfg, s.inbox)

/-! ### The operations -/

section
variable (s : State)

@[simp] theorem emit_given (e : OutEvent) : (emit e s).given = s.given := rfl

@[simp] theorem onChip_given (f : Chip → Chip) : (s.onChip f).given = s.given := rfl

@[simp] theorem takeSnapshot_given (resp : List Byte) : (takeSnapshot resp s).given = s.given := rfl

@[simp] theorem issue_given (c : ChainCmd) (ok : Bool) : (issue c ok s).given = s.given := by simp [State.given]

@[simp] theorem deliver_given (al : Bool) (f : Frame) : (deliver al f s).given = s.given := by simp [State.given]

@[simp] theorem issueInit_given (q : InitStep) (ok : Bool) : (issueInit q ok s).given = s.given := by
  rcases issueInit_cases q ok s with ⟨-, h⟩ | ⟨-, _, _, -, -, -, h⟩ <;> rw [h] <;> rfl

@[simp] theorem acknowledgeTransmit_given : (acknowledgeTransmit s).given = s.given := by
  unfold acknowledgeTransmit; split <;> rfl

@[simp] theorem countOverflow_given : (countOverflow s).given = s.given := by
  unfold countOverflow; split <;> rfl

@[simp] theorem atQuiescentPoint_given (ok : Bool) : (atQuiescentPoint ok s).given = s.given := by
  rcases atQuiescentPoint_cases ok s with ⟨-, h⟩ | ⟨-, -, h⟩ | ⟨-, -, h⟩ <;> rw [h]
  · exact issue_given ..
  · exact issue_given ..
  · rfl

@[simp] theorem transmitOrReadFlags_given (ok : Bool) : (transmitOrReadFlags ok s).given = s.given := by
  unfold transmitOrReadFlags
  split <;> exact issue_given ..

@[simp] theorem afterSnapshot_given (ok : Bool) : (afterSnapshot ok s).given = s.given := by
  unfold afterSnapshot
  split_ifs <;> simp

/-! ### The completions -/

@[simp] theorem completeReadRxBuf0_given (resp : List Byte) (ok al : Bool) :
    (completeReadRxBuf0 resp ok al s).given = s.given := by
  unfold completeReadRxBuf0
  dsimp only
  split <;> simp

@[simp] theorem completeClearStatusFlags_given (ok : Bool) : (completeClearStatusFlags ok s).given = s.given := by
  unfold completeClearStatusFlags
  dsimp only
  split_ifs <;> simp

@[simp] theorem completeChain_given (c : ChainCmd) (resp : List Byte) (ok al : Bool) :
    (completeChain c resp ok al s).given = s.given := by
  cases c with
  | readFlags => exact (afterSnapshot_given ..).trans (takeSnapshot_given ..)
  | readRxBuf0 => exact completeReadRxBuf0_given ..
  | readRxBuf1 => exact (transmitOrReadFlags_given ..).trans (deliver_given ..)
  | clearStatusFlags => exact completeClearStatusFlags_given ..
  | clearErrorFlags => exact (issue_given ..).trans (countOverflow_given ..)
  | loadTransmitBuffer | requestSend => exact issue_given ..

@[simp] theorem completeReadId_given (resp : List Byte) : (completeReadId resp s).given = s.given := by
  unfold completeReadId; split <;> rfl

@[simp] theorem completePollMode_given (resp : List Byte) (ok tm : Bool) :
    (completePollMode resp ok tm s).given = s.given := by
  unfold completePollMode
  split_ifs
  · rfl
  · rfl
  · exact issueInit_given ..

@[simp] theorem completeInit_given (q : InitStep) (resp : List Byte) (ok tm : Bool) :
    (completeInit q resp ok tm s).given = s.given := by
  cases q with
  | pReadId => exact completeReadId_given ..
  | sPollMode => exact completePollMode_given ..
  | pReset | sReset | sBitTiming | sIntEnable | sRxb0Ctrl | sRxb1Ctrl | sMode => exact issueInit_given ..

/-! ### The entry points -/

@[simp] theorem takeInterrupt_given (ok : Bool) : (takeInterrupt ok s).given = s.given := by
  unfold takeInterrupt
  split
  · rfl
  · exact issue_given ..

@[simp] theorem acceptRequest_given (f : Frame) (ok : Bool) : (acceptRequest f ok s).given = s.given := by
  unfold acceptRequest
  split
  · rfl
  · exact issue_given ..

@[simp] theorem tearDown_given : (tearDown s).given = s.given := by
  unfold tearDown releaseSlot
  split <;> rfl

end

/-! ### Every instruction -/

/-- Rules R241, R242: a bus command changes the chip only, and no stimulus changes the parameters. -/
theorem exec_given {i : Instr} {s t : State} (h : exec i s = .next t) : t.given = s.given := by
  cases i with
  | write _ _ | read _ _ | bitModify _ _ _ | loadTxBuffer0 _ _ | loadTxBuffer1 _ _ | loadTxBuffer2 _ _
  | requestToSend0 | requestToSend1 | requestToSend2 | readRxBuffer0 _ | readRxBuffer1 _ | reset =>
    obtain rfl := Host.Outcome.next.inj h
    exact onChip_given ..
  | notifyInterrupt _ =>
    obtain rfl := Host.Outcome.next.inj h
    split
    · exact takeInterrupt_given ..
    · rfl
  | requestTransmit _ _ =>
    obtain rfl := Host.Outcome.next.inj h
    split_ifs
    · exact emit_given ..
    · exact emit_given ..
    · exact emit_given ..
    · exact acceptRequest_given ..
  | busComplete _ _ _ _ =>
    rcases busComplete_next_cases h with ⟨_, -, rfl⟩ | ⟨_, -, rfl⟩
    · exact completeChain_given ..
    · exact completeInit_given ..
  | probe _ | start _ _ =>
    obtain rfl := Host.Outcome.next.inj h
    split
    · exact issueInit_given ..
    · rfl
  | stop =>
    obtain ⟨-, rfl⟩ := stop_next h
    split
    · exact tearDown_given ..
    · rfl

/-- Rules R56, R141: an illegal completion is a fault. -/
theorem execBusComplete_ne_refused (resp : List Byte) (ok al tm : Bool) (s : State) (r : Refusal) :
    execBusComplete resp ok al tm s ≠ .refused r := by
  unfold execBusComplete
  split
  · nofun
  · split
    · split <;> nofun
    · nofun

/-- Rule R196: a Stop with a command outstanding is a fault. -/
theorem execStop_ne_refused (s : State) (r : Refusal) : execStop s ≠ .refused r := by
  unfold execStop
  split <;> nofun

/-- The two stimuli that can stop end in a fault; every other instruction has a next state from every state. -/
theorem exec_ne_refused (i : Instr) (s : State) (r : Refusal) : exec i s ≠ .refused r := by
  cases i with
  | busComplete resp ok al tm => exact execBusComplete_ne_refused resp ok al tm s r
  | stop => exact execStop_ne_refused s r
  | write _ _ | read _ _ | bitModify _ _ _ | loadTxBuffer0 _ _ | loadTxBuffer1 _ _ | loadTxBuffer2 _ _
  | requestToSend0 | requestToSend1 | requestToSend2 | readRxBuffer0 _ | readRxBuffer1 _ | reset
  | notifyInterrupt _ | requestTransmit _ _ | probe _ | start _ _ => nofun

/-- Settles O16: the parameters and the inbox are kept together by every operation, hence by every instruction; and only
BusComplete and Stop can have no next state, where they fault. -/
theorem parametersNeverChange : Obligations.ParametersNeverChange :=
  fun i s => ⟨exec_ne_refused i s, fun _ h => Prod.mk.inj (exec_given h)⟩

end Sys2Proof.Machine

/-! ## The two encodings read back (R70 to R86)

Each format's decoder accepts its own operand bytes and nothing else; so a message decodes exactly when it is the encoding of a
well-formed instruction. -/

namespace Sys2Proof.Machine

/-! ### The formats of the bus channel -/

theorem checked_of_wellFormed {i : Instr} (h : i.wellFormed = true) (op : Byte) : checked op i = .ok i := if_pos h

theorem checked_eq_ok {op : Byte} {i j : Instr} (hok : checked op i = .ok j) : i.wellFormed = true ∧ i = j := by
  unfold checked at hok
  split at hok
  · exact ⟨‹_›, Except.ok.inj hok⟩
  · cases hok

section
variable {op : Byte} {rest : List Byte} {i j : Instr}

theorem encode_of_checked (hmake : encode i = ⟨.bus, op :: rest⟩) (hok : checked op i = .ok j) :
    j.wellFormed = true ∧ encode j = ⟨.bus, op :: rest⟩ := by
  obtain ⟨hwf, rfl⟩ := checked_eq_ok hok
  exact ⟨hwf, hmake⟩

theorem encode_of_decodeAddressed {make : Byte → List Byte → Instr}
    (hmake : ∀ addr data, encode (make addr data) = ⟨.bus, op :: addr :: data⟩)
    (hok : decodeAddressed op make rest = .ok i) : i.wellFormed = true ∧ encode i = ⟨.bus, op :: rest⟩ := by
  unfold decodeAddressed at hok
  split at hok
  · exact encode_of_checked (hmake _ _) hok
  · cases hok

theorem encode_of_decodeLoad {make : Header → List Byte → Instr}
    (hmake : ∀ h data, encode (make h data) = ⟨.bus, op :: (h.bytes ++ data)⟩)
    (hok : decodeLoad op make rest = .ok i) : i.wellFormed = true ∧ encode i = ⟨.bus, op :: rest⟩ := by
  unfold decodeLoad at hok
  split at hok
  · exact encode_of_checked (hmake _ _) hok
  · cases hok

theorem encode_of_decodeBitModify (hok : decodeBitModify rest = .ok i) :
    i.wellFormed = true ∧ encode i = ⟨.bus, opBitModify :: rest⟩ := by
  unfold decodeBitModify at hok
  split at hok
  · obtain rfl := Except.ok.inj hok
    exact ⟨rfl, rfl⟩
  · cases hok

theorem encode_of_decodeBare (hmake : encode j = ⟨.bus, [op]⟩) (hwf : j.wellFormed = true)
    (hok : decodeBare op j rest = .ok i) : i.wellFormed = true ∧ encode i = ⟨.bus, op :: rest⟩ := by
  unfold decodeBare at hok
  split at hok
  · obtain rfl := Except.ok.inj hok
    exact ⟨hwf, hmake⟩
  · cases hok

end

/-- Rules R70, R71: the twelve opcodes in the decoder's order. -/
theorem encode_of_decodeBusOp {op : Byte} {rest : List Byte} {i : Instr} (hok : decodeBusOp op rest = .ok i) :
    i.wellFormed = true ∧ encode i = ⟨.bus, op :: rest⟩ := by
  simp only [decodeBusOp, ite_eq_iff, reduceCtorEq, and_false, or_false] at hok
  rcases hok with ⟨rfl, hok⟩ | ⟨-, ⟨rfl, hok⟩ | ⟨-, ⟨rfl, hok⟩ | ⟨-, ⟨rfl, hok⟩ | ⟨-, ⟨rfl, hok⟩ | ⟨-, ⟨rfl, hok⟩ | ⟨-,
    ⟨rfl, hok⟩ | ⟨-, ⟨rfl, hok⟩ | ⟨-, ⟨rfl, hok⟩ | ⟨-, ⟨rfl, hok⟩ | ⟨-, ⟨rfl, hok⟩ | ⟨-, rfl, hok⟩⟩⟩⟩⟩⟩⟩⟩⟩⟩⟩
  · exact encode_of_decodeAddressed (fun _ _ => rfl) hok
  · exact encode_of_decodeAddressed (fun _ _ => rfl) hok
  · exact encode_of_decodeBitModify hok
  · exact encode_of_decodeLoad (fun _ _ => rfl) hok
  · exact encode_of_decodeLoad (fun _ _ => rfl) hok
  · exact encode_of_decodeLoad (fun _ _ => rfl) hok
  · exact encode_of_decodeBare rfl rfl hok
  · exact encode_of_decodeBare rfl rfl hok
  · exact encode_of_decodeBare rfl rfl hok
  · exact encode_of_checked rfl hok
  · exact encode_of_checked rfl hok
  · exact encode_of_decodeBare rfl rfl hok

/-! ### The operands of the stimuli (the model's layout, assumption 3) -/

/-- The code and the three draws account for every bit of a stimulus byte but bit 7. -/
theorem stimulusByte_of_bits (b : Byte) (h : b &&& 0x80 = 0) :
    stimulusByte (b &&& 0x0F) (!b.getLsbD 4) (!b.getLsbD 5) (b.getLsbD 6) = b := by
  revert b; decide

/-- A stimulus that asks only for the transport's verdict has bits 7 to 5 zero. -/
theorem stimulusByte_of_submit (b : Byte) (h : b &&& 0xE0 = 0) :
    stimulusByte (b &&& 0x0F) (!b.getLsbD 4) true false = b := by
  revert b; decide

/-- A stimulus without a draw has bits 7 to 4 zero. -/
theorem stimulusByte_of_code (b : Byte) (h : b &&& 0xF0 = 0) : stimulusByte (b &&& 0x0F) true true false = b := by
  revert b; decide

/-- A frame's flag byte. -/
def flagByte (ext rtr : Bool) : Byte := (if ext then 0x01 else 0x00) ||| (if rtr then 0x02 else 0x00)

theorem flagByte_of_bits (b : Byte) (h : b &&& 0xFC = 0) : flagByte (b.getLsbD 0) (b.getLsbD 1) = b := by
  revert b; decide

theorem vector_eq_bytes (v : Vector Byte 8) : v = #v[v[0], v[1], v[2], v[3], v[4], v[5], v[6], v[7]] := by
  ext i hi
  interval_cases i <;> rfl

/-- A 32-bit word is its four bytes. -/
theorem word_eq_bytes (w : Word32) :
    w.extractLsb' 24 8 ++ w.extractLsb' 16 8 ++ w.extractLsb' 8 8 ++ w.extractLsb' 0 8 = w := by
  rw [BitVec.extractLsb'_append_extractLsb'_eq_extractLsb' (rfl : 24 = 16 + 8),
    BitVec.extractLsb'_append_extractLsb'_eq_extractLsb' (rfl : 16 = 8 + 8),
    BitVec.extractLsb'_append_extractLsb'_eq_extractLsb' (rfl : 8 = 0 + 8), BitVec.extractLsb'_eq_self]

theorem bytes_of_word (a b c d : Byte) :
    (a ++ b ++ c ++ d).extractLsb' 24 8 = a ∧ (a ++ b ++ c ++ d).extractLsb' 16 8 = b
      ∧ (a ++ b ++ c ++ d).extractLsb' 8 8 = c ∧ (a ++ b ++ c ++ d).extractLsb' 0 8 = d := by
  have past {k n : Nat} (x : BitVec n) (y : Byte) (h : 8 ≤ k) : (x ++ y).extractLsb' k 8 = x.extractLsb' (k - 8) 8 :=
    BitVec.extractLsb'_append_eq_of_le h
  refine ⟨?_, ?_, ?_, BitVec.extractLsb'_append_eq_right⟩
  · rw [past _ d (by decide), past _ c (by decide), past _ b (by decide)]
    exact BitVec.extractLsb'_eq_self
  · rw [past _ d (by decide), past _ c (by decide)]
    exact BitVec.extractLsb'_append_eq_right
  · rw [past _ d (by decide)]
    exact BitVec.extractLsb'_append_eq_right

theorem frameBytes_eq (f : Frame) :
    frameBytes f = [f.id.extractLsb' 24 8, f.id.extractLsb' 16 8, f.id.extractLsb' 8 8, f.id.extractLsb' 0 8,
      flagByte f.ext f.rtr, BitVec.ofNat 8 f.len] ++ f.data.toList := rfl

theorem frameOfBytes_frameBytes {f : Frame} (h : f.len < 256) : frameOfBytes (frameBytes f) = some f := by
  have hlen : (BitVec.ofNat 8 f.len).toNat = f.len := Nat.mod_eq_of_lt h
  obtain ⟨hmask, hext, hrtr⟩ : flagByte f.ext f.rtr &&& 0xFC = 0 ∧ (flagByte f.ext f.rtr).getLsbD 0 = f.ext
      ∧ (flagByte f.ext f.rtr).getLsbD 1 = f.rtr := by
    cases f.ext <;> cases f.rtr <;> decide
  calc frameOfBytes (frameBytes f)
    _ = some { id := f.id.extractLsb' 24 8 ++ f.id.extractLsb' 16 8 ++ f.id.extractLsb' 8 8 ++ f.id.extractLsb' 0 8,
               ext := (flagByte f.ext f.rtr).getLsbD 0, rtr := (flagByte f.ext f.rtr).getLsbD 1,
               len := (BitVec.ofNat 8 f.len).toNat, data := f.data } := by
      rw [frameBytes_eq, vector_eq_bytes f.data]
      exact if_pos hmask
    _ = some f := by rw [word_eq_bytes, hext, hrtr, hlen]

theorem frameBytes_of_frameOfBytes {bytes : List Byte} {f : Frame} (h : frameOfBytes bytes = some f) :
    f.len < 256 ∧ frameBytes f = bytes := by
  unfold frameOfBytes at h
  split at h
  · next i3 i2 i1 i0 flags len _ _ _ _ _ _ _ _ =>
    split at h
    · next hflags =>
      obtain rfl := Option.some.inj h
      obtain ⟨h3, h2, h1, h0⟩ := bytes_of_word i3 i2 i1 i0
      refine ⟨len.isLt, ?_⟩
      rw [frameBytes_eq, h3, h2, h1, h0, flagByte_of_bits flags hflags, BitVec.ofNat_toNat, BitVec.setWidth_eq]
      rfl
    · cases h
  · cases h

theorem modeOfByte_modeByte (m : Mode) : modeOfByte (modeByte m) = some m := by
  obtain ⟨base, oneShot⟩ := m
  cases base <;> cases oneShot <;> rfl

theorem modeByte_of_modeOfByte {b : Byte} {m : Mode} (h : modeOfByte b = some m) : modeByte m = b := by
  obtain ⟨base, oneShot⟩ := m
  revert b
  cases base <;> cases oneShot <;> decide

/-! ### The formats of the stimulus channel -/

section
variable {code : Byte} {rest : List Byte} {i j : Instr} {submit : Bool}

theorem encode_of_decodeBareStimulus {b : Byte} (hmake : encode j = ⟨.stimulus, [b]⟩) (hwf : j.wellFormed = true)
    (hok : decodeBareStimulus code j rest = .ok i) : i.wellFormed = true ∧ encode i = ⟨.stimulus, b :: rest⟩ := by
  unfold decodeBareStimulus at hok
  split at hok
  · obtain rfl := Except.ok.inj hok
    exact ⟨hwf, hmake⟩
  · cases hok

theorem encode_of_decodeRequest (hok : decodeRequest submit rest = .ok i) :
    i.wellFormed = true ∧ encode i = ⟨.stimulus, stimulusByte codeRequestTransmit submit true false :: rest⟩ := by
  unfold decodeRequest at hok
  split at hok
  · next f hf =>
    obtain rfl := Except.ok.inj hok
    obtain ⟨hlen, rfl⟩ := frameBytes_of_frameOfBytes hf
    exact ⟨decide_eq_true hlen, rfl⟩
  · cases hok

theorem encode_of_decodeStart (hok : decodeStart submit rest = .ok i) :
    i.wellFormed = true ∧ encode i = ⟨.stimulus, stimulusByte codeStart submit true false :: rest⟩ := by
  unfold decodeStart at hok
  split at hok
  · split at hok
    · next m hm =>
      obtain rfl := Except.ok.inj hok
      obtain rfl := modeByte_of_modeOfByte hm
      exact ⟨rfl, rfl⟩
    · cases hok
  · cases hok

end

/-- Rule R85: the six codes in the decoder's order; of each, the bits it leaves unused are zero, so byte 0 is determined by the
code and the draws. -/
theorem encode_of_decodeStimulusByte {b : Byte} {rest : List Byte} {i : Instr} (hok : decodeStimulusByte b rest = .ok i) :
    i.wellFormed = true ∧ encode i = ⟨.stimulus, b :: rest⟩ := by
  simp only [decodeStimulusByte, ite_eq_iff, reduceCtorEq, and_false, or_false] at hok
  rcases hok with ⟨hcode, hbits, hok⟩ | ⟨-, ⟨hcode, hbits, hok⟩ | ⟨-, ⟨hcode, hbits, hok⟩ | ⟨-, ⟨hcode, hbits, hok⟩ | ⟨-,
    ⟨hcode, hbits, hok⟩ | ⟨-, hcode, hbits, hok⟩⟩⟩⟩⟩
  · have hbyte := stimulusByte_of_submit b hbits
    rw [hcode] at hbyte
    exact encode_of_decodeBareStimulus (by rw [encode, hbyte]) rfl hok
  · have hbyte := stimulusByte_of_submit b hbits
    rw [hcode] at hbyte
    exact hbyte ▸ encode_of_decodeRequest hok
  · have hbyte := stimulusByte_of_bits b hbits
    rw [hcode] at hbyte
    obtain rfl := Except.ok.inj hok
    exact ⟨rfl, by rw [encode, hbyte]⟩
  · have hbyte := stimulusByte_of_submit b hbits
    rw [hcode] at hbyte
    exact encode_of_decodeBareStimulus (by rw [encode, hbyte]) rfl hok
  · have hbyte := stimulusByte_of_submit b hbits
    rw [hcode] at hbyte
    exact hbyte ▸ encode_of_decodeStart hok
  · have hbyte := stimulusByte_of_code b hbits
    rw [hcode] at hbyte
    exact encode_of_decodeBareStimulus (by rw [encode, hbyte]) rfl hok

/-! ### Both channels -/

/-- Settles O3: a decoder's branch fixes byte 0, and its format's decoder accounts for every byte after it. -/
theorem encodeInvertsDecode : Obligations.EncodeInvertsDecode := by
  rintro ⟨channel, bytes⟩ i hok
  cases channel with
  | bus =>
    cases bytes with
    | nil => cases hok
    | cons op rest => exact encode_of_decodeBusOp hok
  | stimulus =>
    cases bytes with
    | nil => cases hok
    | cons b rest => exact encode_of_decodeStimulusByte hok

theorem decodeRequest_frameBytes {f : Frame} (h : f.len < 256) (submit : Bool) :
    decodeRequest submit (frameBytes f) = .ok (.requestTransmit f submit) := by
  simp only [decodeRequest, frameOfBytes_frameBytes h]

theorem decodeStart_modeByte (m : Mode) (submit : Bool) : decodeStart submit [modeByte m] = .ok (.start m submit) := by
  simp only [decodeStart, modeOfByte_modeByte]

/-- Settles O2: byte 0 selects the instruction's own format; the checks of the format are the instruction's well-formedness. -/
theorem decodeInvertsEncode : Obligations.DecodeInvertsEncode := by
  intro i hwf
  cases i with
  | write _ _ | read _ _ | loadTxBuffer0 _ _ | loadTxBuffer1 _ _ | loadTxBuffer2 _ _ | readRxBuffer0 _ | readRxBuffer1 _ =>
    exact checked_of_wellFormed hwf _
  | bitModify _ _ _ | requestToSend0 | requestToSend1 | requestToSend2 | reset | stop => rfl
  | notifyInterrupt submit | probe submit => cases submit <;> rfl
  | busComplete resp submit alloc timeout => cases submit <;> cases alloc <;> cases timeout <;> rfl
  | requestTransmit f submit =>
    have hlen : f.len < 256 := of_decide_eq_true hwf
    cases submit <;> exact decodeRequest_frameBytes hlen _
  | start m submit => cases submit <;> exact decodeStart_modeByte m _

end Sys2Proof.Machine

/-! ## What the encodings give the bus (R82 to R85)

Written-out words, reserved codes, the lengths a stream decoder tells, and the well-formedness of the block's own commands. -/

namespace Sys2Proof.Machine

/-- Settles O1: the decoder evaluated on each of the eight words. -/
theorem writtenOutWordsDecode : Obligations.WrittenOutWordsDecode :=
  ⟨rfl, rfl, rfl, rfl, rfl, rfl, rfl, rfl⟩

/-! ### Messages that are no instruction -/

/-- Rule R85: the reserved codes are those outside 1 to 6. -/
theorem decodeStimulusByte_of_reserved {b : Byte} (h : b &&& 0x0F = 0x00 ∨ 0x07 ≤ (b &&& 0x0F).toNat) (rest : List Byte) :
    decodeStimulusByte b rest = .error (.reservedStimulus (b &&& 0x0F)) := by
  have hcode : ∀ code : Byte, code ≠ 0x00 → code.toNat < 0x07 → b &&& 0x0F ≠ code := by
    rintro code hzero hlow rfl
    exact h.elim hzero (Nat.not_le.mpr hlow)
  simp only [decodeStimulusByte, hcode codeNotifyInterrupt (by decide) (by decide),
    hcode codeRequestTransmit (by decide) (by decide), hcode codeBusComplete (by decide) (by decide),
    hcode codeProbe (by decide) (by decide), hcode codeStart (by decide) (by decide),
    hcode codeStop (by decide) (by decide), if_false]

/-- Rules R71, R84: every opcode outside the table is unknown. -/
theorem decodeBusOp_of_unknown {op : Byte}
    (h : op ∉ ([0x02, 0x03, 0x05, 0x40, 0x42, 0x44, 0x81, 0x82, 0x84, 0x90, 0x94, 0xC0] : List Byte)) (rest : List Byte) :
    decodeBusOp op rest = .error (.unknownOpcode op) := by
  have hop : ∀ known : Byte, known ∈ ([0x02, 0x03, 0x05, 0x40, 0x42, 0x44, 0x81, 0x82, 0x84, 0x90, 0x94, 0xC0] : List Byte) →
      op ≠ known := by
    rintro _ hknown rfl
    exact h hknown
  simp only [decodeBusOp, hop opWrite (by decide), hop opRead (by decide), hop opBitModify (by decide),
    hop (opLoadTxBuffer 0) (by decide), hop (opLoadTxBuffer 1) (by decide), hop (opLoadTxBuffer 2) (by decide),
    hop (opRequestToSend 0) (by decide), hop (opRequestToSend 1) (by decide), hop (opRequestToSend 2) (by decide),
    hop (opReadRxBuffer 0) (by decide), hop (opReadRxBuffer 1) (by decide), hop opReset (by decide), if_false]

/-- A step without a decoded instruction. -/
theorem step_of_error {s : State} {m : Message} {later : List Input} {e : DecodeError}
    (hin : s.inbox = .message m :: later) (h : decode m = .error e) : step s = .refused (.undecodable e) := by
  simp only [step, nextInput, hin, h]

/-- Settles O4: the decoder refuses the message, and a step refuses what the decoder refuses. -/
theorem reservedCodesAreRefused : Obligations.ReservedCodesAreRefused :=
  ⟨fun _ _ rest _ h => step_of_error rfl (decodeStimulusByte_of_reserved h rest),
    fun _ _ rest _ h => step_of_error rfl (decodeBusOp_of_unknown h rest)⟩

/-- Settles O14: one clause per form of the inbox. -/
theorem stepRunsTheDecodedInstruction : Obligations.StepRunsTheDecodedInstruction := by
  refine ⟨?decoded, fun _ _ _ _ => step_of_error, ?event, ?empty⟩
  case decoded =>
    intro s m later i hin hok
    simp only [step, nextInput, hin, hok]
  case event =>
    intro s e later hin
    simp only [step, nextInput, hin]
    rfl
  case empty =>
    intro s hin
    simp only [step, nextInput, hin]

/-! ### Lengths of bus commands (R83) -/

/-- Rule R83 for LOAD_TX_BUFFER: the low four bits of the length byte count the data. -/
theorem length_of_fits {h : Header} {data : List Byte} (hfits : h.fits data = true) (op : Byte) :
    (op :: (h.bytes ++ data)).length = 6 + (h.h5 &&& 0x0F).toNat := by
  have hdata : data.length = (h.h5 &&& 0x0F).toNat := beq_iff_eq.mp hfits
  rw [← hdata, List.length_cons, List.length_append]
  simp only [Header.bytes, List.length_cons, List.length_nil]
  omega

/-- A command whose length is told is none of those the transport delimits. -/
theorem streamLength_of_told {bytes : List Byte} {n : Nat} {delimited : Prop} (htold : streamLength bytes = some n)
    (hlength : bytes.length = n) (hother : ¬delimited) :
    (∀ k, streamLength bytes = some k → bytes.length = k) ∧ (streamLength bytes = none ↔ delimited) := by
  simp [htold, hlength, hother]

/-- Settles O5: each opcode's format has the length that the stream decoder tells, for LOAD_TX_BUFFER by the length byte. -/
theorem streamLengthIsCommandLength : Obligations.StreamLengthIsCommandLength := by
  intro i hwf hbus
  cases i with
  | write addr data => exact ⟨nofun, fun _ => .inr ⟨addr, data, rfl⟩, fun _ => rfl⟩
  | read addr clock => exact ⟨nofun, fun _ => .inl ⟨addr, clock, rfl⟩, fun _ => rfl⟩
  | bitModify _ _ _ | requestToSend0 | requestToSend1 | requestToSend2 | reset =>
    exact streamLength_of_told rfl rfl (by simp)
  | loadTxBuffer0 _ _ | loadTxBuffer1 _ _ | loadTxBuffer2 _ _ =>
    exact streamLength_of_told rfl (length_of_fits hwf _) (by simp)
  | readRxBuffer0 _ | readRxBuffer1 _ =>
    exact streamLength_of_told rfl (congrArg (· + 1) (beq_iff_eq.mp hwf)) (by simp)
  | notifyInterrupt _ | requestTransmit _ _ | busComplete _ _ _ _ | probe _ | start _ _ | stop => cases hbus

/-! ### The commands the block submits (R82, R109) -/

/-- Rule R169: the length byte of a held frame's header counts the data bytes sent with it. -/
theorem txHeader_fits {f : Frame} (hf : f.wellFormed = true) (inDlc : Bool) :
    (txHeader inDlc f).fits (f.data.toList.take f.len) = true := by
  have hlen := len_le_of_wellFormed hf
  have hlow : ∀ remote, (lengthByte f.len remote &&& 0x0F).toNat = f.len := by
    generalize f.len = len at hlen
    interval_cases len <;> decide
  have hsent : (f.data.toList.take f.len).length = f.len := by simpa using hlen
  rw [Header.fits, hsent, beq_iff_eq]
  cases hext : f.ext with
  | true => simp only [txHeader_of_extended inDlc hext, hlow]
  | false => simp only [txHeader_of_standard inDlc hext, hlow]

/-- What a command of the chain is, as an instruction. -/
theorem command_is_encoding {c : ChainCmd} {cmd : List Byte} {s : State}
    (hslot : ∀ f, s.outgoingFrame = some f → f.wellFormed = true) (hcmd : command c s = some cmd) :
    ∃ i : Instr, i.wellFormed = true ∧ encode i = ⟨.bus, cmd⟩ := by
  cases c with
  | readFlags =>
    obtain rfl := Option.some.inj hcmd
    exact ⟨.read addrInterruptFlag [Config.fill, Config.fill], rfl, rfl⟩
  | readRxBuf0 =>
    obtain rfl := Option.some.inj hcmd
    exact ⟨.readRxBuffer0 (List.replicate 13 Config.fill), rfl, rfl⟩
  | readRxBuf1 =>
    obtain rfl := Option.some.inj hcmd
    exact ⟨.readRxBuffer1 (List.replicate 13 Config.fill), rfl, rfl⟩
  | clearStatusFlags =>
    obtain rfl := Option.some.inj hcmd
    exact ⟨.bitModify addrInterruptFlag s.statusBits 0x00, rfl, rfl⟩
  | clearErrorFlags =>
    obtain rfl := Option.some.inj hcmd
    exact ⟨.bitModify addrErrorFlag s.errorFlags 0x00, rfl, rfl⟩
  | loadTransmitBuffer =>
    obtain ⟨f, hf, rfl⟩ := Option.map_eq_some_iff.mp hcmd
    exact ⟨.loadTxBuffer0 (txHeader s.cfg.txStdRtrInDlc f) (f.data.toList.take f.len), txHeader_fits (hslot f hf) _, rfl⟩
  | requestSend =>
    obtain rfl := Option.some.inj hcmd
    exact ⟨.requestToSend0, rfl, rfl⟩

theorem initCommand_is_encoding (q : InitStep) (s : State) :
    ∃ i : Instr, i.wellFormed = true ∧ encode i = ⟨.bus, initCommand q s⟩ := by
  cases q with
  | pReset | sReset => exact ⟨.reset, rfl, rfl⟩
  | pReadId => exact ⟨.read addrStatusMode [Config.fill, Config.fill], rfl, rfl⟩
  | sBitTiming => exact ⟨.write addrBitTiming [s.cfg.cnf0, s.cfg.cnf1, s.cfg.cnf2], rfl, rfl⟩
  | sIntEnable => exact ⟨.write s.cfg.inteAddr [s.cfg.inteValue], rfl, rfl⟩
  | sRxb0Ctrl => exact ⟨.write addrRxb0Ctrl [s.cfg.rxb0ctrlValue], rfl, rfl⟩
  | sRxb1Ctrl => exact ⟨.write addrRxb1Ctrl [s.cfg.rxb1ctrlValue], rfl, rfl⟩
  | sMode => exact ⟨.write addrControl [modeCode s.cfg s.mode], rfl, rfl⟩
  | sPollMode => exact ⟨.read addrStatusMode [Config.fill], rfl, rfl⟩

/-- Settles O7: every command is the encoding of a well-formed instruction, which decoding gives back (O2). -/
theorem issuedCommandsAreWellFormed : Obligations.IssuedCommandsAreWellFormed := by
  intro s hslot
  constructor
  · intro c cmd hcmd
    obtain ⟨i, hwf, henc⟩ := command_is_encoding hslot hcmd
    exact ⟨i, henc ▸ decodeInvertsEncode i hwf, hwf⟩
  · intro q
    obtain ⟨i, hwf, henc⟩ := initCommand_is_encoding q s
    exact ⟨i, henc ▸ decodeInvertsEncode i hwf, hwf⟩

end Sys2Proof.Machine

/-! ## The gate's answers (R100 to R104) -/

namespace Sys2Proof.Machine

/-- Rules R100, R227: an idle block starts the chain at ReadFlags. -/
theorem exec_notifyInterrupt_of_idle {s : State} (hrunning : s.ctl.running = true) (hbusy : s.busy = false) (ok : Bool) :
    exec (.notifyInterrupt ok) s = .next (submitted .readFlags readFlagsBytes ok { s with busy := true }) := by
  rw [← issue_readFlags]
  simp [exec, execNotifyInterrupt, takeInterrupt, hrunning, hbusy]

/-- Settles O17: the three cases are the branches of the entry point. -/
theorem notifyInterruptEffect : Obligations.NotifyInterruptEffect :=
  fun _ ok => ⟨fun hrunning => exec_notifyInterrupt_of_not_running hrunning ok,
    fun hrunning hbusy => exec_notifyInterrupt_of_busy hrunning hbusy ok,
    fun hrunning hbusy => exec_notifyInterrupt_of_idle hrunning hbusy ok⟩

/-! ### Transmit requests -/

/-- Rule R103, case 1. -/
theorem exec_requestTransmit_of_illFormed {f : Frame} (hf : f.wellFormed = false) (ok : Bool) (s : State) :
    exec (.requestTransmit f ok) s = .next { s with out := s.out ++ [.txReply .rejectedInvalid] } := by
  simp [exec, execRequestTransmit, emit, hf]

section
variable {s : State} {f : Frame} (hf : f.wellFormed = true) (hrunning : s.ctl.running = true)
include hf hrunning

/-- Rule R103, case 3. -/
theorem exec_requestTransmit_of_slotFull {g : Frame} (hslot : s.outgoingFrame = some g) (ok : Bool) :
    exec (.requestTransmit f ok) s = .next { s with out := s.out ++ [.txReply .rejectedSlotFull] } := by
  simp [exec, execRequestTransmit, emit, hf, hrunning, hslot]

/-- Rule R104: none of the three rejections applies. -/
theorem exec_requestTransmit_of_slotEmpty (hslot : s.outgoingFrame = none) (ok : Bool) :
    exec (.requestTransmit f ok) s = .next (acceptRequest f ok s) := by
  simp [exec, execRequestTransmit, hf, hrunning, hslot]

end

theorem acceptRequest_of_busy {s : State} (hbusy : s.busy = true) (f : Frame) (ok : Bool) :
    acceptRequest f ok s
      = { s with outgoingFrame := some f, transmitPending := true, out := s.out ++ [.txReply .accepted, .queueStop] } := by
  simp [acceptRequest, emit, hbusy]

theorem acceptRequest_of_idle {s : State} (hbusy : s.busy = false) (f : Frame) (ok : Bool) :
    acceptRequest f ok s
      = submitted .loadTransmitBuffer (encodeTx s.cfg.txStdRtrInDlc f) ok
          { s with outgoingFrame := some f, busy := true, out := s.out ++ [.txReply .accepted, .queueStop] } := by
  rw [acceptRequest, emit_busy, emit_busy, hbusy, if_neg Bool.false_ne_true, issue_loadTransmitBuffer rfl]
  simp [emit]

/-- Settles O19: rule R103's cases in its order. -/
theorem requestTransmitRejected : Obligations.RequestTransmitRejected := by
  refine fun s f g ok => ⟨fun hf => exec_requestTransmit_of_illFormed hf ok s, ?_,
    fun hf hrunning hslot => exec_requestTransmit_of_slotFull hf hrunning hslot ok⟩
  intro hf hrunning
  rw [exec_requestTransmit_of_not_running hrunning, if_pos hf]

/-- Settles O20: an accepted request is kept while busy and submitted while idle. -/
theorem requestTransmitAccepted : Obligations.RequestTransmitAccepted := by
  intro s f ok hf hrunning hslot
  rw [exec_requestTransmit_of_slotEmpty hf hrunning hslot]
  exact ⟨fun hbusy => congrArg _ (acceptRequest_of_busy hbusy f ok),
    fun hbusy => congrArg _ (acceptRequest_of_idle hbusy f ok)⟩

end Sys2Proof.Machine

/-! ## The completions of the chain (R121 to R135) -/

namespace Sys2Proof.Machine

/-! ### The flag tests, as bits of the snapshot -/

theorem rx0Flag_eq (s : State) : s.rx0Flag = s.statusBits.getLsbD s.cfg.rx0ifBit := anySet_bitMask ..

theorem rx1Flag_eq (s : State) : s.rx1Flag = s.statusBits.getLsbD s.cfg.rx1ifBit := anySet_bitMask ..

theorem tx0Flag_eq (s : State) : s.tx0Flag = s.statusBits.getLsbD s.cfg.tx0ifBit := anySet_bitMask ..

theorem overflow_eq (s : State) :
    s.overflow = (s.errorFlags.getLsbD s.cfg.rx0ovrBit || s.errorFlags.getLsbD s.cfg.rx1ovrBit) := anySet_ovrMask ..

theorem anyStatus_eq_false {s : State} : s.anyStatus = false ↔ s.statusBits = 0x00 := by simp [State.anyStatus]

/-! ### Rule R109: the commands whose bytes the rule gives -/

theorem issue_readRxBuf0 (ok : Bool) (s : State) :
    issue .readRxBuf0 ok s = submitted .readRxBuf0 (0x90 :: List.replicate 13 0x00) ok s := issue_of_command ok rfl

theorem issue_readRxBuf1 (ok : Bool) (s : State) :
    issue .readRxBuf1 ok s = submitted .readRxBuf1 (0x94 :: List.replicate 13 0x00) ok s := issue_of_command ok rfl

theorem issue_clearStatusFlags (ok : Bool) (s : State) :
    issue .clearStatusFlags ok s = submitted .clearStatusFlags [0x05, 0x2C, s.statusBits, 0x00] ok s :=
  issue_of_command ok rfl

theorem issue_clearErrorFlags (ok : Bool) (s : State) :
    issue .clearErrorFlags ok s = submitted .clearErrorFlags [0x05, 0x2D, s.errorFlags, 0x00] ok s :=
  issue_of_command ok rfl

/-! ### ReadFlags -/

section
variable {s : State}

theorem afterSnapshot_of_rx0 (h : s.rx0Flag = true) (ok : Bool) :
    afterSnapshot ok s = submitted .readRxBuf0 (0x90 :: List.replicate 13 0x00) ok s :=
  (if_pos h).trans (issue_readRxBuf0 ok s)

theorem afterSnapshot_of_rx1 (h0 : s.rx0Flag = false) (h1 : s.rx1Flag = true) (ok : Bool) :
    afterSnapshot ok s = submitted .readRxBuf1 (0x94 :: List.replicate 13 0x00) ok s := by
  rw [afterSnapshot, h0, if_neg Bool.false_ne_true, if_pos h1, issue_readRxBuf1]

theorem afterSnapshot_of_status (h0 : s.rx0Flag = false) (h1 : s.rx1Flag = false) (h : s.anyStatus = true) (ok : Bool) :
    afterSnapshot ok s = submitted .clearStatusFlags [0x05, 0x2C, s.statusBits, 0x00] ok s := by
  rw [afterSnapshot, h0, h1, if_neg Bool.false_ne_true, if_neg Bool.false_ne_true, if_pos h,
    issue_clearStatusFlags]

end

/-- Settles O22: an empty snapshot leads to the quiescent point, whose branches are the clauses; with an empty slot the load has
no command to issue. -/
theorem quiescentPoint : Obligations.QuiescentPoint := by
  intro s r0 r1 ef ok al tm h
  refine ⟨fun f htransmit hslot => exec_emptySnapshot_of_transmit h htransmit hslot ok al tm, ?_,
    fun htransmit hinterrupt => exec_emptySnapshot_of_interrupt h htransmit hinterrupt ok al tm,
    fun htransmit hinterrupt => exec_emptySnapshot_of_nothing_pending h htransmit hinterrupt ok al tm⟩
  intro htransmit hslot
  rw [exec_busComplete_emptySnapshot h, atQuiescentPoint, if_pos htransmit]
  exact congrArg _ (issue_of_no_command ok (command_eq_none.mpr ⟨rfl, hslot⟩))

/-- Settles O26: the snapshot taken, the clauses are rule R122's first three cases. -/
theorem readFlagsCompletion : Obligations.ReadFlagsCompletion := by
  intro s r0 r1 sb ef ok al tm h read
  have htaken : exec (.busComplete [r0, r1, sb, ef] ok al tm) s = .next (afterSnapshot ok read) :=
    exec_busComplete_chain h ok al tm
  rw [htaken]
  refine ⟨fun h0 => ?_, fun h0 h1 => ?_, fun h0 h1 hsb => ?_⟩
  · rw [afterSnapshot_of_rx0 ((rx0Flag_eq read).trans h0)]
  · rw [afterSnapshot_of_rx1 ((rx0Flag_eq read).trans h0) ((rx1Flag_eq read).trans h1)]
  · rw [afterSnapshot_of_status ((rx0Flag_eq read).trans h0) ((rx1Flag_eq read).trans h1) (bne_iff_ne.mpr hsb)]

/-! ### The receive reads -/

section
variable {s : State}

theorem transmitOrReadFlags_of_transmit {f : Frame} (hpending : s.transmitPending = true) (hslot : s.outgoingFrame = some f)
    (ok : Bool) :
    transmitOrReadFlags ok s
      = submitted .loadTransmitBuffer (encodeTx s.cfg.txStdRtrInDlc f) ok { s with transmitPending := false } := by
  rw [transmitOrReadFlags, if_pos (by simp [hpending, hslot])]
  exact issue_loadTransmitBuffer (s := { s with transmitPending := false }) hslot ok

theorem transmitOrReadFlags_of_none (h : s.transmitPending = false ∨ s.outgoingFrame = none) (ok : Bool) :
    transmitOrReadFlags ok s = submitted .readFlags readFlagsBytes ok s := by
  rw [transmitOrReadFlags, if_neg, issue_readFlags]
  rcases h with h | h <;> simp [h]

end

/-- Rule R166 as a record. -/
theorem deliver_eq (al : Bool) (f : Frame) (s : State) :
    deliver al f s = if al then { s with out := s.out ++ [.rxFrame f] }
      else { s with rxDropCount := s.rxDropCount + 1, out := s.out ++ [.rxDrop] } := rfl

/-- Rules R124, R125. -/
theorem completeReadRxBuf0_eq (resp : List Byte) (ok al : Bool) (s : State) :
    completeReadRxBuf0 resp ok al s
      = if s.rx1Flag then submitted .readRxBuf1 (0x94 :: List.replicate 13 0x00) ok (deliver al (decodeRx resp) s)
        else transmitOrReadFlags ok (deliver al (decodeRx resp) s) := by
  have hkept : (deliver al (decodeRx resp) s).rx1Flag = s.rx1Flag := by simp [State.rx1Flag]
  rw [← hkept, ← issue_readRxBuf1]
  rfl

/-- Rule R107 after a delivery: what selects the successor is as it was before. -/
theorem transmitOrReadFlags_delivered {s got : State} {al : Bool} {f : Frame}
    (hgot : deliver al f { s with outstanding := none } = got) (ok : Bool) :
    (∀ g, s.transmitPending = true → s.outgoingFrame = some g →
        transmitOrReadFlags ok got
          = submitted .loadTransmitBuffer (encodeTx s.cfg.txStdRtrInDlc g) ok { got with transmitPending := false })
      ∧ (s.transmitPending = false ∨ s.outgoingFrame = none →
        transmitOrReadFlags ok got = submitted .readFlags readFlagsBytes ok got) := by
  have hpending : got.transmitPending = s.transmitPending := hgot ▸ deliver_transmitPending ..
  have hslot : got.outgoingFrame = s.outgoingFrame := hgot ▸ deliver_outgoingFrame ..
  have hcfg : got.cfg = s.cfg := hgot ▸ deliver_cfg ..
  rw [← hpending, ← hslot, ← hcfg]
  exact ⟨fun g h1 h2 => transmitOrReadFlags_of_transmit h1 h2 ok, fun h => transmitOrReadFlags_of_none h ok⟩

/-- Settles O27: delivery leaves the cached RX1, the pending transmit and the slot that select the successor. -/
theorem readRxBuf0Completion : Obligations.ReadRxBuf0Completion := by
  intro s resp ok al tm _ h got
  have hgot : deliver al (decodeRx resp) { s with outstanding := none } = got := deliver_eq ..
  obtain ⟨htransmit, hread⟩ := transmitOrReadFlags_delivered hgot ok
  rw [exec_busComplete_chain h, completeChain, completeReadRxBuf0_eq, hgot, rx1Flag_eq]
  refine ⟨fun h1 => congrArg _ (if_pos h1), fun h1 => ?_⟩
  rw [if_neg (ne_true_of_eq_false h1)]
  exact ⟨fun f h2 h3 => congrArg _ (htransmit f h2 h3), fun hnone => congrArg _ (hread hnone)⟩

/-- Settles O28: delivery, then TransmitOrReadFlags. -/
theorem readRxBuf1Completion : Obligations.ReadRxBuf1Completion := by
  intro s resp ok al tm _ h got
  have hgot : deliver al (decodeRx resp) { s with outstanding := none } = got := deliver_eq ..
  obtain ⟨htransmit, hread⟩ := transmitOrReadFlags_delivered hgot ok
  rw [exec_busComplete_chain h, completeChain, completeReadRxBuf1, hgot]
  exact ⟨fun f h1 h2 => congrArg _ (htransmit f h1 h2), fun hnone => congrArg _ (hread hnone)⟩

/-! ### The clear commands -/

/-- Rule R133: the state from which ClearStatusFlags' successor is issued. -/
def acknowledged (s : State) : State := if s.tx0Flag then acknowledgeTransmit s else s

@[simp] theorem acknowledged_errorFlags (s : State) : (acknowledged s).errorFlags = s.errorFlags := by
  unfold acknowledged acknowledgeTransmit
  split
  · split <;> rfl
  · rfl

/-- Rule R133: the error flags select the successor, and the acknowledgement leaves them. -/
theorem completeClearStatusFlags_eq (ok : Bool) (s : State) :
    completeClearStatusFlags ok s
      = if s.errorFlags ≠ 0x00 then submitted .clearErrorFlags [0x05, 0x2D, s.errorFlags, 0x00] ok (acknowledged s)
        else submitted .readFlags readFlagsBytes ok (acknowledged s) := by
  have hany : (acknowledged s).anyError = true ↔ s.errorFlags ≠ 0x00 := by simp [State.anyError]
  rw [← acknowledged_errorFlags] at hany ⊢
  rw [← issue_clearErrorFlags, ← issue_readFlags]
  exact if_congr hany rfl rfl

/-- Settles O29: the two clauses are the two successors of the acknowledged state. -/
theorem clearStatusFlagsCompletion : Obligations.ClearStatusFlagsCompletion := by
  intro s resp ok al tm h acked
  have hacked : acknowledged { s with outstanding := none } = acked := by
    unfold acked acknowledged
    rw [tx0Flag_eq]
    cases hslot : s.outgoingFrame <;> simp [acknowledgeTransmit, emit]
  rw [exec_busComplete_chain h, completeChain, completeClearStatusFlags_eq, hacked]
  exact ⟨fun hset => congrArg _ (if_pos hset), fun hclear => congrArg _ (if_neg (not_not.mpr hclear))⟩

theorem ofNat_toNat_succ (n : Word32) : BitVec.ofNat 32 ((n.toNat + 1) % 2 ^ 32) = n + 1 := by
  apply BitVec.eq_of_toNat_eq
  simp [BitVec.toNat_add]

/-- Settles O30: an increment of a 32-bit word is one modulo 2^32. -/
theorem clearErrorFlagsCompletion : Obligations.ClearErrorFlagsCompletion := by
  intro s resp ok al tm h
  rw [exec_busComplete_chain h, completeChain, completeClearErrorFlags, issue_readFlags, countOverflow, overflow_eq,
    ofNat_toNat_succ]
  simp only [Bool.or_eq_true]

end Sys2Proof.Machine

/-! ## Startup and stop (R180 to R197) -/

namespace Sys2Proof.Machine

/-- Rules R180, R217. -/
theorem exec_probe_of_unprobed {s : State} (h : s.ctl = .unprobed) (ok : Bool) :
    exec (.probe ok) s = .next (probeSubmitted .pReset [0xC0] ok s) := by
  rw [exec, execProbe, if_pos h, issueInit_eq_probeSubmitted ok s rfl]
  rfl

/-- Settles O45: in `Unprobed` the probe's first step is submitted, elsewhere Probe is ignored. -/
theorem probeEffect : Obligations.ProbeEffect :=
  fun _ ok => ⟨fun h => exec_probe_of_unprobed h ok, fun h => exec_probe_of_ne_unprobed h ok⟩

/-- Settles O46: the reset's completion submits the read; the read's completion is rule R182's test of both masked bytes. -/
theorem probeCompletions : Obligations.ProbeCompletions := by
  intro s ok al tm
  constructor
  · intro r0 h
    rw [exec_busComplete_init h, completeInit, issueInit_eq_probeSubmitted ok _ rfl]
    rfl
  · intro r0 r1 stat ctrl h
    have htest : detected s.cfg stat ctrl = true
        ↔ stat &&& s.cfg.detStatMask = s.cfg.detStatExp ∧ ctrl &&& s.cfg.detCtrlMask = s.cfg.detCtrlExp := by
      simp [detected]
    rw [exec_busComplete_init h, completeInit]
    exact congrArg _ (if_congr htest rfl rfl)

/-- Rules R186, R217. -/
theorem exec_start_of_off {s : State} (h : s.ctl = .off) (m : Mode) (ok : Bool) :
    exec (.start m ok) s
      = .next (startSubmitted .sReset [0xC0] ok { s with mode := m, out := s.out ++ [.transceiverEnable] }) := by
  rw [exec, execStart, if_pos h, issueInit_eq_startSubmitted ok _ rfl]
  rfl

/-- Settles O48: in `Off` the mode and the transceiver come before the first command. -/
theorem startEffect : Obligations.StartEffect :=
  fun _ m ok => ⟨fun h => exec_start_of_off h m ok, fun h => exec_start_of_ne_off h m ok⟩

/-- Rules R187 to R191: the start step that the completion of another submits. -/
def InitStep.startSuccessor : InitStep → Option InitStep
  | .sReset => some .sBitTiming
  | .sBitTiming => some .sIntEnable
  | .sIntEnable => some .sRxb0Ctrl
  | .sRxb0Ctrl => some .sRxb1Ctrl
  | .sRxb1Ctrl => some .sMode
  | .sMode => some .sPollMode
  | .pReset | .pReadId | .sPollMode => none

/-- Rules R187 to R191, said once for the six steps. -/
theorem exec_busComplete_startStep {s : State} {q q' : InitStep} {resp : List Byte} (hnext : q.startSuccessor = some q')
    (h : AwaitsInit q resp s) (ok al tm : Bool) :
    exec (.busComplete resp ok al tm) s
      = .next (startSubmitted q' (initCommand q' s) ok { s with outstanding := none }) := by
  have hstart : q'.isProbe = false := by
    cases q <;> cases hnext <;> rfl
  have hcompletes : completeInit q resp ok tm { s with outstanding := none }
      = issueInit q' ok { s with outstanding := none } := by
    cases q <;> cases hnext <;> rfl
  have hcommand : initCommand q' { s with outstanding := none } = initCommand q' s := initCommand_congr q' rfl rfl
  rw [exec_busComplete_init h, hcompletes, issueInit_eq_startSubmitted ok _ hstart, hcommand]

/-- Settles O49: each step's successor, with the successor's command bytes. -/
theorem startStepCompletions : Obligations.StartStepCompletions :=
  fun _ _ ok al tm => ⟨fun h => exec_busComplete_startStep rfl h ok al tm, fun h => exec_busComplete_startStep rfl h ok al tm,
    fun h => exec_busComplete_startStep rfl h ok al tm, fun h => exec_busComplete_startStep rfl h ok al tm,
    fun h => exec_busComplete_startStep rfl h ok al tm, fun h => exec_busComplete_startStep rfl h ok al tm⟩

/-- Rules R192, R193, R214. -/
theorem exec_busComplete_pollMode {s : State} {r0 r1 stat : Byte} (h : AwaitsInit .sPollMode [r0, r1, stat] s)
    (ok al tm : Bool) :
    exec (.busComplete [r0, r1, stat] ok al tm) s = .next
      (if stat &&& s.cfg.opmodeMask = modeCode s.cfg s.mode &&& s.cfg.opmodeMask then
        { s with outstanding := none, ctl := .idle, out := s.out ++ [.initResult .startOk] }
      else if tm = true then
        { s with outstanding := none, ctl := .off, out := s.out ++ [.transceiverDisable, .initResult .modeTimeout] }
      else startSubmitted .sPollMode [0x03, 0x0E, 0x00] ok { s with outstanding := none }) := by
  have htest : modeEntered s.cfg s.mode stat = true
      ↔ stat &&& s.cfg.opmodeMask = modeCode s.cfg s.mode &&& s.cfg.opmodeMask := by
    simp [modeEntered]
  have hpoll : issueInit .sPollMode ok { s with outstanding := none }
      = startSubmitted .sPollMode [0x03, 0x0E, 0x00] ok { s with outstanding := none } :=
    issueInit_eq_startSubmitted ok _ rfl
  rw [exec_busComplete_init h, completeInit, completePollMode, hpoll]
  refine congrArg _ (if_congr htest rfl (if_congr Iff.rfl ?_ rfl))
  simp [emit]

/-- Settles O50: a mode reported, a timeout, or the next poll. -/
theorem pollModeCompletion : Obligations.PollModeCompletion := by
  intro s r0 r1 stat ok al tm h
  rw [exec_busComplete_pollMode h]
  exact ⟨fun hmode => congrArg _ (if_pos hmode), fun hmode => congrArg _ (if_neg hmode)⟩

/-! ### The whole start sequence -/

theorem execAll_cons {i : Instr} {s t : State} (h : exec i s = .next t) (rest : List Instr) :
    execAll (i :: rest) s = execAll rest t := by
  rw [execAll, h]

/-- The state in which start step `q` is awaited, with the outputs since Start. -/
def State.starting (s : State) (m : Mode) (q : InitStep) (outputs : List OutEvent) : State :=
  { s with mode := m, ctl := .init q, outstanding := some (initCommand q { s with mode := m }), out := s.out ++ outputs }

/-- An accepted start step submits its successor and appends its command to the outputs. -/
theorem execAll_starting (q : InitStep) {q' : InitStep} (resp : List Byte) {s : State} {m : Mode}
    (hnext : q.startSuccessor = some q') (hlength : (initCommand q { s with mode := m }).length = resp.length) (al tm : Bool)
    (outputs : List OutEvent) (rest : List Instr) :
    execAll (.busComplete resp true al tm :: rest) (s.starting m q outputs)
      = execAll rest (s.starting m q' (outputs ++ [.busCmd (initCommand q' { s with mode := m })])) := by
  have hawaits : AwaitsInit q resp (s.starting m q outputs) := ⟨rfl, congrArg some hlength⟩
  have hcommand : initCommand q' (s.starting m q outputs) = initCommand q' { s with mode := m } := initCommand_congr q' rfl rfl
  rw [execAll_cons (exec_busComplete_startStep hnext hawaits true al tm), hcommand, startSubmitted, if_pos rfl]
  simp [State.starting]

/-- Settles O51: Start, the six steps one after the other, and the poll that finds the mode. -/
theorem startSequenceReachesIdle : Obligations.StartSequenceReachesIdle := by
  intro s m r0 r1 r2 r3 r4 r5 r6 r7 r8 r9 r10 r11 r12 r13 r14 r15 r16 r17 r18 r19 stat hoff hmode
  have hstart : exec (.start m true) s = .next (s.starting m .sReset [.transceiverEnable, .busCmd [0xC0]]) := by
    rw [exec_start_of_off hoff, startSubmitted, if_pos rfl]
    simp [State.starting, initCommand, opReset]
  have hpoll (outputs : List OutEvent) : exec (.busComplete [r18, r19, stat] true true false) (s.starting m .sPollMode outputs)
      = .next { s with mode := m, outstanding := none, ctl := .idle, out := s.out ++ outputs ++ [.initResult .startOk] } :=
    (exec_busComplete_pollMode ⟨rfl, rfl⟩ true true false).trans (congrArg _ (if_pos hmode))
  rw [execAll_cons hstart, execAll_starting .sReset [r0] rfl rfl, execAll_starting .sBitTiming [r1, r2, r3, r4, r5] rfl rfl,
    execAll_starting .sIntEnable [r6, r7, r8] rfl rfl, execAll_starting .sRxb0Ctrl [r9, r10, r11] rfl rfl,
    execAll_starting .sRxb1Ctrl [r12, r13, r14] rfl rfl, execAll_starting .sMode [r15, r16, r17] rfl rfl,
    execAll_cons (hpoll _), execAll]
  simp [initCommand, addrBitTiming, addrRxb0Ctrl, addrRxb1Ctrl, addrControl, addrStatusMode, opWrite, opRead,
    Config.fill]

/-! ### Stop -/

/-- Rule R195: Running with no command awaited is `Idle` or `Stalled(_)`. -/
theorem exec_stop_of_running {s : State} (hrunning : s.ctl.running = true) (hawaiting : s.ctl.awaiting = false) :
    exec .stop s = .next (tearDown s) := by
  cases hctl : s.ctl with
  | idle | stalled _ => simp [exec, execStop, hctl]
  | wait _ | init _ => simp [hctl, Ctl.awaiting] at hawaiting
  | unprobed | probeFailed | off | fault _ => simp [hctl, Ctl.running] at hrunning

/-- Settles O52: a held frame is released before the transceiver is disabled. -/
theorem stopEffect : Obligations.StopEffect := by
  intro s
  refine ⟨fun f hrunning hawaiting hslot => ?_, fun hrunning hawaiting hslot => ?_, exec_stop_of_not_running⟩
  · rw [exec_stop_of_running hrunning hawaiting]
    simp [tearDown, releaseSlot, emit, hslot]
  · rw [exec_stop_of_running hrunning hawaiting]
    simp [tearDown, releaseSlot, emit, hslot]

end Sys2Proof.Machine

/-! ## What an instruction can answer

Every next state of every instruction, as one list of cases; the properties of all instructions are read off it. -/

namespace Sys2Proof.Machine

/-! ### The chain -/

/-- Rules R122 to R139: `ChainSuccessor resp al s c d u` says that `c`, completed with response `resp` and allocation
verdict `al` in the session `s`, is followed by a submission of `d` from the session `u`. -/
inductive ChainSuccessor (resp : List Byte) (al : Bool) (s : State) : ChainCmd → ChainCmd → State → Prop
  /-- R122, the first case. -/
  | rx0 : ChainSuccessor resp al s .readFlags .readRxBuf0 (takeSnapshot resp s)
  /-- R122, the second case. -/
  | rx1 : ChainSuccessor resp al s .readFlags .readRxBuf1 (takeSnapshot resp s)
  /-- R122, the third case. -/
  | status (h0 : (takeSnapshot resp s).rx0Flag = false) (h1 : (takeSnapshot resp s).rx1Flag = false) :
    ChainSuccessor resp al s .readFlags .clearStatusFlags (takeSnapshot resp s)
  /-- R106: the quiescent point with a transmit pending. -/
  | pendingTransmit :
    ChainSuccessor resp al s .readFlags .loadTransmitBuffer { takeSnapshot resp s with transmitPending := false }
  /-- R106: the quiescent point with an interrupt pending. -/
  | pendingInterrupt : ChainSuccessor resp al s .readFlags .readFlags { takeSnapshot resp s with interruptPending := false }
  /-- R125: RX1 in the snapshot. -/
  | cachedRx1 : ChainSuccessor resp al s .readRxBuf0 .readRxBuf1 (deliver al (decodeRx resp) s)
  /-- R107 after a receive read, with a transmit pending. -/
  | deliveredTransmit {c : ChainCmd} (hc : c = .readRxBuf0 ∨ c = .readRxBuf1) :
    ChainSuccessor resp al s c .loadTransmitBuffer { deliver al (decodeRx resp) s with transmitPending := false }
  /-- R107 after a receive read, with none. -/
  | delivered {c : ChainCmd} (hc : c = .readRxBuf0 ∨ c = .readRxBuf1) :
    ChainSuccessor resp al s c .readFlags (deliver al (decodeRx resp) s)
  /-- R133 with an error flag set. -/
  | error : ChainSuccessor resp al s .clearStatusFlags .clearErrorFlags (acknowledged s)
  /-- R133 with none. -/
  | noError : ChainSuccessor resp al s .clearStatusFlags .readFlags (acknowledged s)
  /-- R135. -/
  | counted : ChainSuccessor resp al s .clearErrorFlags .readFlags (countOverflow s)
  /-- R137. -/
  | loaded : ChainSuccessor resp al s .loadTransmitBuffer .requestSend s
  /-- R139. -/
  | requested : ChainSuccessor resp al s .requestSend .readFlags s

/-- Rules R106, R122: everything the completion of ReadFlags can do. -/
theorem completeReadFlags_cases (resp : List Byte) (ok al : Bool) (s : State) :
    (∃ d cmd u, ChainSuccessor resp al s .readFlags d u ∧ command d u = some cmd
        ∧ completeChain .readFlags resp ok al s = submitted d cmd ok u)
      ∨ respByte resp 2 = 0x00 ∧ s.transmitPending = true ∧ s.outgoingFrame = none
        ∧ completeChain .readFlags resp ok al s
          = { takeSnapshot resp s with transmitPending := false, ctl := .fault .loadNoFrame, outstanding := none }
      ∨ respByte resp 2 = 0x00 ∧ s.transmitPending = false ∧ s.interruptPending = false
        ∧ completeChain .readFlags resp ok al s
          = { takeSnapshot resp s with busy := false, ctl := .idle, outstanding := none } := by
  rw [completeChain, completeReadFlags]
  cases h0 : (takeSnapshot resp s).rx0Flag with
  | true => exact .inl ⟨_, _, _, .rx0, rfl, afterSnapshot_of_rx0 h0 ok⟩
  | false =>
    cases h1 : (takeSnapshot resp s).rx1Flag with
    | true => exact .inl ⟨_, _, _, .rx1, rfl, afterSnapshot_of_rx1 h0 h1 ok⟩
    | false =>
      cases hany : (takeSnapshot resp s).anyStatus with
      | true => exact .inl ⟨_, _, _, .status h0 h1, rfl, afterSnapshot_of_status h0 h1 hany ok⟩
      | false =>
        have hempty : respByte resp 2 = 0x00 := anyStatus_eq_false.mp hany
        rw [afterSnapshot_of_empty hempty]
        rcases atQuiescentPoint_cases ok (takeSnapshot resp s) with ⟨htransmit, h⟩ | ⟨-, -, h⟩ | ⟨htransmit, hinterrupt, h⟩
        · rw [h]
          rcases issue_cases .loadTransmitBuffer ok { takeSnapshot resp s with transmitPending := false } with
            ⟨cmd, hcmd, hissue⟩ | ⟨-, hslot, hissue⟩
          · exact .inl ⟨_, cmd, _, .pendingTransmit, hcmd, hissue⟩
          · exact .inr (.inl ⟨hempty, htransmit, hslot, hissue⟩)
        · exact .inl ⟨_, _, _, .pendingInterrupt, rfl, h.trans (issue_readFlags ..)⟩
        · exact .inr (.inr ⟨hempty, htransmit, hinterrupt, h⟩)

/-- Rule R107 after a delivery. -/
theorem transmitOrReadFlags_successor (resp : List Byte) (ok al : Bool) (s : State) {c : ChainCmd}
    (hc : c = .readRxBuf0 ∨ c = .readRxBuf1) :
    ∃ d cmd u, ChainSuccessor resp al s c d u ∧ command d u = some cmd
      ∧ transmitOrReadFlags ok (deliver al (decodeRx resp) s) = submitted d cmd ok u := by
  rcases transmitOrReadFlags_cases ok (deliver al (decodeRx resp) s) with ⟨f, -, hslot, h⟩ | ⟨-, h⟩
  · exact ⟨_, _, _, .deliveredTransmit hc, congrArg (Option.map _) hslot, h⟩
  · exact ⟨_, _, _, .delivered hc, rfl, h⟩

/-- Rules R124 to R139: every other completion of the chain submits a successor. -/
theorem completeChain_successor {c : ChainCmd} (hc : c ≠ .readFlags) (resp : List Byte) (ok al : Bool) (s : State) :
    ∃ d cmd u, ChainSuccessor resp al s c d u ∧ command d u = some cmd
      ∧ completeChain c resp ok al s = submitted d cmd ok u := by
  cases c with
  | readFlags => exact absurd rfl hc
  | readRxBuf0 =>
    rw [completeChain, completeReadRxBuf0_eq]
    split
    · exact ⟨_, _, _, .cachedRx1, rfl, rfl⟩
    · exact transmitOrReadFlags_successor resp ok al s (.inl rfl)
  | readRxBuf1 => exact transmitOrReadFlags_successor resp ok al s (.inr rfl)
  | clearStatusFlags =>
    rw [completeChain, completeClearStatusFlags_eq]
    split
    · exact ⟨_, _, _, .error, by rw [← acknowledged_errorFlags]; rfl, rfl⟩
    · exact ⟨_, _, _, .noError, rfl, rfl⟩
  | clearErrorFlags => exact ⟨_, _, _, .counted, rfl, issue_readFlags ..⟩
  | loadTransmitBuffer => exact ⟨_, _, _, .loaded, rfl, issue_requestSend ..⟩
  | requestSend => exact ⟨_, _, _, .requested, rfl, issue_readFlags ..⟩

/-! ### The startup sequencer -/

/-- Rules R183, R187 to R194: everything the completion of a startup step can do: submit a step, or report a result and leave
the sequencer. -/
theorem completeInit_cases (q : InitStep) (resp : List Byte) (ok tm : Bool) (s : State) :
    (∃ q', completeInit q resp ok tm s = issueInit q' ok s)
      ∨ ∃ c events, (c = .off ∨ c = .probeFailed ∨ c = .idle) ∧ commandsOf events = []
        ∧ completeInit q resp ok tm s = { s with ctl := c, out := s.out ++ events } := by
  cases q with
  | pReset | sReset | sBitTiming | sIntEnable | sRxb0Ctrl | sRxb1Ctrl | sMode => exact .inl ⟨_, rfl⟩
  | pReadId =>
    rw [completeInit, completeReadId]
    split
    · exact .inr ⟨.off, [.initResult .probeOk], by simp, rfl, rfl⟩
    · exact .inr ⟨.probeFailed, [.initResult .detectFail], by simp, rfl, rfl⟩
  | sPollMode =>
    rw [completeInit, completePollMode]
    split_ifs
    · exact .inr ⟨.idle, [.initResult .startOk], by simp, rfl, rfl⟩
    · exact .inr ⟨.off, [.transceiverDisable, .initResult .modeTimeout], by simp, rfl, by simp [emit]⟩
    · exact .inl ⟨_, rfl⟩

/-! ### Every instruction -/

/-- The next states of the instructions from `s`. -/
inductive Answer (s : State) : Instr → State → Prop
  /-- R241: a bus command is the chip's. -/
  | bus {i : Instr} {f : Chip → Chip} (hbus : (encode i).channel = .bus) (hexec : exec i s = .next (s.onChip f)) :
    Answer s i (s.onChip f)
  /-- R101, R180, R186, R195: a stimulus with no effect. -/
  | ignored {i : Instr} : Answer s i s
  /-- R100 while busy. -/
  | interruptKept {ok : Bool} (hbusy : s.busy = true) : Answer s (.notifyInterrupt ok) { s with interruptPending := true }
  /-- R100 while idle. -/
  | interruptTaken {ok : Bool} (hrunning : s.ctl.running = true) (hbusy : s.busy = false) :
    Answer s (.notifyInterrupt ok) (submitted .readFlags readFlagsBytes ok { s with busy := true })
  /-- R103. -/
  | requestRejected {f : Frame} {ok : Bool} (r : TxReply) :
    Answer s (.requestTransmit f ok) { s with out := s.out ++ [.txReply r] }
  /-- R104 while busy. -/
  | requestKept {f : Frame} {ok : Bool} (hf : f.wellFormed = true) (hrunning : s.ctl.running = true)
      (hslot : s.outgoingFrame = none) (hbusy : s.busy = true) :
    Answer s (.requestTransmit f ok)
      { s with outgoingFrame := some f, transmitPending := true, out := s.out ++ [.txReply .accepted, .queueStop] }
  /-- R104 while idle. -/
  | requestTaken {f : Frame} {ok : Bool} (hf : f.wellFormed = true) (hrunning : s.ctl.running = true) (hbusy : s.busy = false) :
    Answer s (.requestTransmit f ok)
      (submitted .loadTransmitBuffer (encodeTx s.cfg.txStdRtrInDlc f) ok
        { s with outgoingFrame := some f, busy := true, out := s.out ++ [.txReply .accepted, .queueStop] })
  /-- R140: a completion in the chain. -/
  | chain {c d : ChainCmd} {resp cmd : List Byte} {ok al tm : Bool} {u : State} (hctl : s.ctl = .wait c)
      (hsucc : ChainSuccessor resp al { s with outstanding := none } c d u) (hcmd : command d u = some cmd) :
    Answer s (.busComplete resp ok al tm) (submitted d cmd ok u)
  /-- R221: the quiescent point with a transmit pending and an empty slot. -/
  | loadFault {resp : List Byte} {ok al tm : Bool} (hctl : s.ctl = .wait .readFlags) (hstatus : respByte resp 2 = 0x00)
      (htransmit : s.transmitPending = true) (hslot : s.outgoingFrame = none) :
    Answer s (.busComplete resp ok al tm)
      { takeSnapshot resp s with transmitPending := false, ctl := .fault .loadNoFrame, outstanding := none }
  /-- R106: the quiescent point with nothing pending. -/
  | rest {resp : List Byte} {ok al tm : Bool} (hctl : s.ctl = .wait .readFlags) (hstatus : respByte resp 2 = 0x00)
      (htransmit : s.transmitPending = false) (hinterrupt : s.interruptPending = false) :
    Answer s (.busComplete resp ok al tm) { takeSnapshot resp s with busy := false, ctl := .idle, outstanding := none }
  /-- R183, R187 to R192: a completion that submits a startup step. -/
  | initStep {q q' : InitStep} {resp : List Byte} {ok al tm : Bool} (hctl : s.ctl = .init q) :
    Answer s (.busComplete resp ok al tm) (issueInit q' ok { s with outstanding := none })
  /-- R183, R192 to R194: a completion that ends the startup sequence. -/
  | initResult {q : InitStep} {c : Ctl} {events : List OutEvent} {resp : List Byte} {ok al tm : Bool} (hctl : s.ctl = .init q)
      (hc : c = .off ∨ c = .probeFailed ∨ c = .idle) (hevents : commandsOf events = []) :
    Answer s (.busComplete resp ok al tm) { s with outstanding := none, ctl := c, out := s.out ++ events }
  /-- R180. -/
  | probed {ok : Bool} (hctl : s.ctl = .unprobed) : Answer s (.probe ok) (issueInit .pReset ok s)
  /-- R186. -/
  | started {m : Mode} {ok : Bool} (hctl : s.ctl = .off) :
    Answer s (.start m ok) (issueInit .sReset ok (emit .transceiverEnable { s with mode := m }))
  /-- R195. -/
  | stopped (hawaiting : s.ctl.awaiting = false) : Answer s .stop (tearDown s)

section
variable {s t : State}

theorem notifyInterrupt_answer {ok : Bool} (h : exec (.notifyInterrupt ok) s = .next t) :
    Answer s (.notifyInterrupt ok) t := by
  cases hrunning : s.ctl.running with
  | false =>
    cases (exec_notifyInterrupt_of_not_running hrunning ok).symm.trans h
    exact .ignored
  | true =>
    cases hbusy : s.busy with
    | true =>
      cases (exec_notifyInterrupt_of_busy hrunning hbusy ok).symm.trans h
      exact .interruptKept hbusy
    | false =>
      cases (exec_notifyInterrupt_of_idle hrunning hbusy ok).symm.trans h
      exact .interruptTaken hrunning hbusy

theorem requestTransmit_answer {f : Frame} {ok : Bool} (h : exec (.requestTransmit f ok) s = .next t) :
    Answer s (.requestTransmit f ok) t := by
  cases hf : f.wellFormed with
  | false =>
    cases (exec_requestTransmit_of_illFormed hf ok s).symm.trans h
    exact .requestRejected _
  | true =>
    cases hrunning : s.ctl.running with
    | false =>
      cases (exec_requestTransmit_of_not_running hrunning f ok).symm.trans h
      exact .requestRejected _
    | true =>
      cases hslot : s.outgoingFrame with
      | some g =>
        cases (exec_requestTransmit_of_slotFull hf hrunning hslot ok).symm.trans h
        exact .requestRejected _
      | none =>
        cases (exec_requestTransmit_of_slotEmpty hf hrunning hslot ok).symm.trans h
        cases hbusy : s.busy with
        | true => exact acceptRequest_of_busy hbusy f ok ▸ .requestKept hf hrunning hslot hbusy
        | false => exact acceptRequest_of_idle hbusy f ok ▸ .requestTaken hf hrunning hbusy

theorem busComplete_answer {resp : List Byte} {ok al tm : Bool} (h : exec (.busComplete resp ok al tm) s = .next t) :
    Answer s (.busComplete resp ok al tm) t := by
  rcases busComplete_next_cases h with ⟨c, hctl, rfl⟩ | ⟨q, hctl, rfl⟩
  · by_cases hc : c = .readFlags
    · subst hc
      rcases completeReadFlags_cases resp ok al { s with outstanding := none } with
        ⟨d, cmd, u, hsucc, hcmd, heq⟩ | ⟨hstatus, htransmit, hslot, heq⟩ | ⟨hstatus, htransmit, hinterrupt, heq⟩
      · exact heq ▸ .chain hctl hsucc hcmd
      · exact heq ▸ .loadFault hctl hstatus htransmit hslot
      · exact heq ▸ .rest hctl hstatus htransmit hinterrupt
    · obtain ⟨d, cmd, u, hsucc, hcmd, heq⟩ := completeChain_successor hc resp ok al { s with outstanding := none }
      exact heq ▸ .chain hctl hsucc hcmd
  · rcases completeInit_cases q resp ok tm { s with outstanding := none } with ⟨q', heq⟩ | ⟨c, events, hc, hevents, heq⟩
    · exact heq ▸ .initStep hctl
    · exact heq ▸ .initResult hctl hc hevents

/-- The inversion of `exec`: every instruction's next state is one of the answers. -/
theorem answer_of_exec {i : Instr} (h : exec i s = .next t) : Answer s i t := by
  cases i with
  | write _ _ | read _ _ | bitModify _ _ _ | loadTxBuffer0 _ _ | loadTxBuffer1 _ _ | loadTxBuffer2 _ _
  | requestToSend0 | requestToSend1 | requestToSend2 | readRxBuffer0 _ | readRxBuffer1 _ | reset =>
    obtain rfl := Host.Outcome.next.inj h
    exact .bus rfl rfl
  | notifyInterrupt _ => exact notifyInterrupt_answer h
  | requestTransmit _ _ => exact requestTransmit_answer h
  | busComplete _ _ _ _ => exact busComplete_answer h
  | probe _ =>
    obtain rfl := Host.Outcome.next.inj h
    split
    · exact .probed ‹_›
    · exact .ignored
  | start _ _ =>
    obtain rfl := Host.Outcome.next.inj h
    split
    · exact .started ‹_›
    · exact .ignored
  | stop =>
    obtain ⟨hawaiting, rfl⟩ := stop_next h
    split
    · exact .stopped hawaiting
    · exact .ignored

end

/-! ### What serving a completion keeps -/

/-- The session `u`, from which a successor of `c` is submitted, against the session `s` in which `c` completed. -/
structure Served (c : ChainCmd) (resp : List Byte) (s u : State) : Prop where
  busy : u.busy = s.busy
  interrupt : u.interruptPending = s.interruptPending ∨ c = .readFlags
  transmit : u.transmitPending = s.transmitPending ∨ c = .readFlags ∨ c = .readRxBuf0 ∨ c = .readRxBuf1
  slot : u.outgoingFrame = s.outgoingFrame ∨ c = .clearStatusFlags ∧ u.outgoingFrame = none
  snapshot : u.statusBits = s.statusBits ∧ u.errorFlags = s.errorFlags
    ∨ c = .readFlags ∧ u.statusBits = respByte resp 2 ∧ u.errorFlags = respByte resp 3
  chip : u.chip = s.chip
  /-- R218: what is put out is for the sink or the queue controller. -/
  out : ∃ events, u.out = s.out ++ events ∧ commandsOf events = [] ∧ ∀ e ∈ events, e.receiver ≠ .host

section
variable (c : ChainCmd) (resp : List Byte) (s : State)

theorem served_refl : Served c resp s s := ⟨rfl, .inl rfl, .inl rfl, .inl rfl, .inl ⟨rfl, rfl⟩, rfl, [], by simp [commandsOf]⟩

theorem takeSnapshot_served : Served .readFlags resp s (takeSnapshot resp s) :=
  { served_refl .readFlags resp s with snapshot := .inr ⟨rfl, rfl, rfl⟩ }

theorem deliver_served (al : Bool) (f : Frame) : Served c resp s (deliver al f s) where
  busy := deliver_busy ..
  interrupt := .inl (deliver_interruptPending ..)
  transmit := .inl (deliver_transmitPending ..)
  slot := .inl (deliver_outgoingFrame ..)
  snapshot := .inl ⟨deliver_statusBits .., deliver_errorFlags ..⟩
  chip := deliver_chip ..
  out := by
    cases al with
    | true => exact ⟨[.rxFrame f], rfl, rfl, by simp [OutEvent.receiver]⟩
    | false => exact ⟨[.rxDrop], rfl, rfl, by simp [OutEvent.receiver]⟩

theorem acknowledged_served : Served .clearStatusFlags resp s (acknowledged s) := by
  have hrefl := served_refl .clearStatusFlags resp s
  unfold acknowledged acknowledgeTransmit
  split
  · split
    · next f _ =>
      exact { hrefl with
        slot := .inr ⟨rfl, rfl⟩
        out := ⟨[.txDone f, .queueResume], by simp, rfl, by simp [OutEvent.receiver]⟩ }
    · exact { hrefl with out := ⟨[.queueResume], by simp, rfl, by simp [OutEvent.receiver]⟩ }
  · exact hrefl

theorem countOverflow_served : Served .clearErrorFlags resp s (countOverflow s) := by
  unfold countOverflow
  split
  · exact { served_refl .clearErrorFlags resp s with }
  · exact served_refl ..

variable {c resp s}

theorem Served.clearTransmit {u : State} (h : Served c resp s u)
    (hc : c = .readFlags ∨ c = .readRxBuf0 ∨ c = .readRxBuf1) : Served c resp s { u with transmitPending := false } :=
  { h with transmit := .inr hc }

theorem Served.clearInterrupt {u : State} (h : Served .readFlags resp s u) :
    Served .readFlags resp s { u with interruptPending := false } :=
  { h with interrupt := .inr rfl }

theorem ChainSuccessor.served {al : Bool} {d : ChainCmd} {u : State} (h : ChainSuccessor resp al s c d u) :
    Served c resp s u := by
  cases h with
  | rx0 | rx1 | status _ _ => exact takeSnapshot_served ..
  | pendingTransmit => exact (takeSnapshot_served resp s).clearTransmit (.inl rfl)
  | pendingInterrupt => exact (takeSnapshot_served resp s).clearInterrupt
  | cachedRx1 => exact deliver_served ..
  | deliveredTransmit hc => exact (deliver_served ..).clearTransmit (.inr hc)
  | delivered hc => exact deliver_served ..
  | error | noError => exact acknowledged_served ..
  | counted => exact countOverflow_served ..
  | loaded | requested => exact served_refl ..

/-- Rule R132: ClearStatusFlags is submitted with neither receive flag in the snapshot. -/
theorem ChainSuccessor.clear_mask {al : Bool} {d : ChainCmd} {u : State} (h : ChainSuccessor resp al s c d u)
    (hd : d = .clearStatusFlags) : u.rx0Flag = false ∧ u.rx1Flag = false := by
  cases h with
  | status h0 h1 => exact ⟨h0, h1⟩
  | rx0 | rx1 | pendingTransmit | pendingInterrupt | cachedRx1 | deliveredTransmit _ | delivered _ | error | noError | counted
  | loaded | requested => cases hd

end

end Sys2Proof.Machine

/-! ## Every step keeps the invariant (R29, R33 to R36, R50, R109, R132) -/

namespace Sys2Proof.Machine

/-! ### States that meet the invariant -/

/-- With no command awaited the clauses on outstanding commands are empty. -/
theorem inv_of_not_awaiting {s : State} (hawaiting : s.ctl.awaiting = false) (houtstanding : s.outstanding = none)
    (hidle : IdleMeansNothingPending s) (hbusy : s.busy = s.ctl.busyValue)
    (hrunning : s.ctl.running = false → s.outgoingFrame = none) (hslot : ∀ f, s.outgoingFrame = some f → f.wellFormed = true)
    (hregs : s.chip.regs.wf = true) : Inv s where
  outstanding_awaiting := by rw [houtstanding, hawaiting]; rfl
  wait_command c hc := by simp [hc, Ctl.awaiting] at hawaiting
  init_command q hq := by simp [hq, Ctl.awaiting] at hawaiting
  nothing_pending := hidle
  busy_ctl := hbusy
  slot_running := hrunning
  slot_wellFormed := hslot
  clear_mask hc := by simp [hc, Ctl.awaiting] at hawaiting
  regs_wf := hregs

/-- The command is computed from fields that a submission leaves. -/
theorem command_submitted (c d : ChainCmd) (cmd : List Byte) (ok : Bool) (s : State) :
    command c (submitted d cmd ok s) = command c s :=
  command_congr c (submitted_statusBits ..) (submitted_errorFlags ..) (submitted_outgoingFrame ..) (submitted_cfg ..)

/-- A chain submission of a busy session meets the invariant. -/
theorem inv_submitted {c : ChainCmd} {cmd : List Byte} {ok : Bool} {s : State} (hcmd : command c s = some cmd)
    (hbusy : s.busy = true) (hslot : ∀ f, s.outgoingFrame = some f → f.wellFormed = true)
    (hmask : c = .clearStatusFlags → s.rx0Flag = false ∧ s.rx1Flag = false) (hregs : s.chip.regs.wf = true) :
    Inv (submitted c cmd ok s) := by
  have hidle : IdleMeansNothingPending (submitted c cmd ok s) :=
    idleMeansNothingPending_of_busy ((submitted_busy ..).trans hbusy)
  cases ok with
  | false => exact inv_of_not_awaiting rfl rfl hidle hbusy nofun hslot hregs
  | true =>
    exact {
      outstanding_awaiting := rfl
      wait_command := by
        intro d hd
        obtain rfl : c = d := Ctl.wait.inj hd
        exact hcmd.symm.trans (command_submitted c c cmd true s).symm
      init_command := nofun
      nothing_pending := hidle
      busy_ctl := hbusy
      slot_running := nofun
      slot_wellFormed := hslot
      clear_mask := fun hc => hmask (Ctl.wait.inj hc)
      regs_wf := hregs }

/-- A startup submission of a session at rest meets the invariant. -/
theorem inv_issueInit {q : InitStep} {ok : Bool} {s : State} (hbusy : s.busy = false) (hidle : IdleMeansNothingPending s)
    (hslot : s.outgoingFrame = none) (hregs : s.chip.regs.wf = true) : Inv (issueInit q ok s) := by
  have hidle' := hidle.issueInit (q := q) (ok := ok)
  have hnone : ∀ f, s.outgoingFrame = some f → f.wellFormed = true := by simp [hslot]
  rcases issueInit_cases q ok s with ⟨-, h⟩ | ⟨-, events, c, hc, -, -, h⟩ <;> rw [h] at hidle' ⊢
  · exact {
      outstanding_awaiting := rfl
      wait_command := nofun
      init_command := by
        intro q' hq
        obtain rfl : q = q' := Ctl.init.inj hq
        exact congrArg some (initCommand_congr q rfl rfl)
      nothing_pending := hidle'
      busy_ctl := hbusy
      slot_running := fun _ => hslot
      slot_wellFormed := hnone
      clear_mask := nofun
      regs_wf := hregs }
  · rcases hc with rfl | rfl <;> exact inv_of_not_awaiting rfl rfl hidle' hbusy (fun _ => hslot) hnone hregs

/-! ### What the invariant says of a state -/

section
variable {s t : State} (hs : Inv s)
include hs

theorem Inv.busy_of_wait {c : ChainCmd} (h : s.ctl = .wait c) : s.busy = true := by rw [hs.busy_ctl, h]; rfl

theorem Inv.not_awaiting_of_idle (h : s.busy = false) (hrunning : s.ctl.running = true) : s.ctl.awaiting = false := by
  cases hctl : s.ctl with
  | wait c => simp [hs.busy_of_wait hctl] at h
  | init q => simp [hctl, Ctl.running] at hrunning
  | unprobed | probeFailed | off | idle | stalled _ | fault _ => rfl

theorem Inv.outstanding_eq_none (h : s.ctl.awaiting = false) : s.outstanding = none := by
  have hnone := hs.outstanding_awaiting
  rwa [h, Option.isSome_eq_false_iff, Option.isNone_iff_eq_none] at hnone

theorem Inv.busy_of_init {q : InitStep} (h : s.ctl = .init q) : s.busy = false := by rw [hs.busy_ctl, h]; rfl

/-- What the invariant speaks of is unchanged. -/
theorem Inv.of_eq (hctl : t.ctl = s.ctl) (houtstanding : t.outstanding = s.outstanding) (hbusy : t.busy = s.busy)
    (hslot : t.outgoingFrame = s.outgoingFrame) (hstatus : t.statusBits = s.statusBits) (herror : t.errorFlags = s.errorFlags)
    (hmode : t.mode = s.mode) (hcfg : t.cfg = s.cfg) (hidle : IdleMeansNothingPending t) (hregs : t.chip.regs.wf = true) :
    Inv t where
  outstanding_awaiting := by rw [houtstanding, hctl, hs.outstanding_awaiting]
  wait_command c hc := by rw [houtstanding, hs.wait_command c (hctl ▸ hc), command_congr c hstatus herror hslot hcfg]
  init_command q hq := by rw [houtstanding, hs.init_command q (hctl ▸ hq), initCommand_congr q hmode hcfg]
  nothing_pending := hidle
  busy_ctl := by rw [hbusy, hctl, hs.busy_ctl]
  slot_running := by rw [hctl, hslot]; exact hs.slot_running
  slot_wellFormed := by rw [hslot]; exact hs.slot_wellFormed
  clear_mask hc := by
    rw [State.rx0Flag, State.rx1Flag, hstatus, hcfg]
    exact hs.clear_mask (hctl ▸ hc)
  regs_wf := hregs

/-- Rule R104 while busy: the awaited command, if any, is not a load, for a load has its frame in the slot. -/
theorem Inv.requestKept {f : Frame} {events : List OutEvent} (hf : f.wellFormed = true) (hrunning : s.ctl.running = true)
    (hslot : s.outgoingFrame = none) (hbusy : s.busy = true) :
    Inv { s with outgoingFrame := some f, transmitPending := true, out := s.out ++ events } where
  outstanding_awaiting := hs.outstanding_awaiting
  wait_command := by
    intro c hc
    have hcommand := hs.wait_command c hc
    cases c with
    | loadTransmitBuffer =>
      have hsome := hs.outstanding_awaiting
      simp [show s.ctl = .wait .loadTransmitBuffer from hc, hcommand, command, hslot, Ctl.awaiting] at hsome
    | readFlags | readRxBuf0 | readRxBuf1 | clearStatusFlags | clearErrorFlags | requestSend => exact hcommand
  init_command := by
    intro q hq
    simp [show s.ctl = .init q from hq, Ctl.running] at hrunning
  nothing_pending := idleMeansNothingPending_of_busy hbusy
  busy_ctl := hs.busy_ctl
  slot_running h := absurd (hrunning.symm.trans h) nofun
  slot_wellFormed := by
    rintro _ ⟨⟩
    exact hf
  clear_mask := hs.clear_mask
  regs_wf := hs.regs_wf

end

/-! ### Power-on -/

/-- Settles O9: rule R40's table is how `State.reset` is defined. -/
theorem resetSession : Obligations.ResetSession := ⟨rfl, rfl, rfl, rfl, rfl, rfl, rfl, rfl, rfl, rfl, rfl, rfl⟩

/-- Settles O10: power-on awaits nothing and lists no register. -/
theorem resetMeetsInvariant : Obligations.ResetMeetsInvariant :=
  fun _ _ => inv_of_not_awaiting rfl rfl (fun _ => ⟨rfl, rfl⟩) rfl (fun _ => rfl) nofun Memory.wf_nil

/-! ### Every instruction -/

/-- Rule R50: a bus command keeps the register memory's form. -/
theorem regs_wf_of_exec_bus {i : Instr} {s t : State} (hbus : (encode i).channel = .bus) (h : exec i s = .next t)
    (hs : s.chip.regs.wf = true) : t.chip.regs.wf = true := by
  cases i with
  | write addr data =>
    obtain rfl := Host.Outcome.next.inj h
    exact Chip.writeFrom_wf _ _ _ _ _ hs
  | bitModify addr mask data =>
    obtain rfl := Host.Outcome.next.inj h
    exact Chip.softwareWrite_wf _ _ _ _ hs
  | readRxBuffer0 _ | readRxBuffer1 _ =>
    obtain rfl := Host.Outcome.next.inj h
    exact Chip.setReg_wf _ _ _ hs
  | reset =>
    obtain rfl := Host.Outcome.next.inj h
    exact Memory.wf_nil
  | read _ _ | loadTxBuffer0 _ _ | loadTxBuffer1 _ _ | loadTxBuffer2 _ _ | requestToSend0 | requestToSend1 | requestToSend2 =>
    obtain rfl := Host.Outcome.next.inj h
    exact hs
  | notifyInterrupt _ | requestTransmit _ _ | busComplete _ _ _ _ | probe _ | start _ _ | stop => cases hbus

theorem Inv.exec {i : Instr} {s t : State} (hs : Inv s) (h : exec i s = .next t) : Inv t := by
  have hidle := hs.nothing_pending.exec h
  cases answer_of_exec h with
  | bus hbus hexec => exact hs.of_eq rfl rfl rfl rfl rfl rfl rfl rfl hidle (regs_wf_of_exec_bus hbus hexec hs.regs_wf)
  | ignored => exact hs
  | interruptKept _ | requestRejected _ => exact hs.of_eq rfl rfl rfl rfl rfl rfl rfl rfl hidle hs.regs_wf
  | interruptTaken _ _ => exact inv_submitted rfl rfl hs.slot_wellFormed nofun hs.regs_wf
  | requestKept hf hrunning hslot hbusy => exact hs.requestKept hf hrunning hslot hbusy
  | requestTaken hf _ _ =>
    refine inv_submitted rfl rfl ?_ nofun hs.regs_wf
    rintro _ ⟨⟩
    exact hf
  | chain hctl hsucc hcmd =>
    have hserved := hsucc.served
    refine inv_submitted hcmd (hserved.busy.trans (hs.busy_of_wait hctl)) ?_ hsucc.clear_mask
      (hserved.chip ▸ hs.regs_wf)
    rcases hserved.slot with hslot | ⟨-, hslot⟩
    · rw [hslot]
      exact hs.slot_wellFormed
    · simp [hslot]
  | loadFault hctl _ _ hslot =>
    exact inv_of_not_awaiting rfl rfl hidle (hs.busy_of_wait hctl) (fun _ => hslot) hs.slot_wellFormed hs.regs_wf
  | rest _ _ _ _ => exact inv_of_not_awaiting rfl rfl hidle rfl nofun hs.slot_wellFormed hs.regs_wf
  | initStep hctl =>
    exact inv_issueInit (hs.busy_of_init hctl) hs.nothing_pending (hs.slot_running (by rw [hctl]; rfl)) hs.regs_wf
  | initResult hctl hc _ =>
    have hbusy := hs.busy_of_init hctl
    have hslot := hs.slot_running (by rw [hctl]; rfl)
    rcases hc with rfl | rfl | rfl <;>
      exact inv_of_not_awaiting rfl rfl hidle hbusy (fun _ => hslot) hs.slot_wellFormed hs.regs_wf
  | probed hctl =>
    exact inv_issueInit (by rw [hs.busy_ctl, hctl]; rfl) hs.nothing_pending (hs.slot_running (by rw [hctl]; rfl)) hs.regs_wf
  | started hctl =>
    exact inv_issueInit (s := emit .transceiverEnable { s with mode := _ }) (by rw [emit_busy, hs.busy_ctl, hctl]; rfl)
      hs.nothing_pending (hs.slot_running (by rw [hctl]; rfl)) hs.regs_wf
  | stopped _ =>
    have hslot : (tearDown s).outgoingFrame = none := by
      cases hheld : s.outgoingFrame <;> simp [tearDown, releaseSlot, hheld]
    have hchip : (tearDown s).chip = s.chip := by
      cases hheld : s.outgoingFrame <;> simp [tearDown, releaseSlot, hheld]
    exact inv_of_not_awaiting rfl rfl hidle rfl (fun _ => hslot) (by simp [hslot]) (hchip ▸ hs.regs_wf)

/-- Settles O11: the chip's own events keep the memory's form and touch nothing else; an instruction's answers are submissions,
which establish the clauses on outstanding commands anew, or states that await none. -/
theorem everyStepKeepsInvariant : Obligations.EveryStepKeepsInvariant := by
  intro s t hs h
  have hidle := hs.nothing_pending.step h
  rcases step_next_cases h with ⟨-, rfl⟩ | ⟨e, later, -, rfl⟩ | ⟨m, later, i, -, -, hexec⟩
  · exact hs
  · exact hs.of_eq rfl rfl rfl rfl rfl rfl rfl rfl hidle (Chip.event_wf _ _ _ hs.regs_wf)
  · have htaken : Inv { s with inbox := later } :=
      hs.of_eq rfl rfl rfl rfl rfl rfl rfl rfl hs.nothing_pending hs.regs_wf
    exact htaken.exec hexec

end Sys2Proof.Machine

/-! ## The output trace (R31, R72, R105, R211, R218) -/

namespace Sys2Proof.Machine

/-! ### The commands a step adds -/

theorem commandsOf_append (a b : List OutEvent) : commandsOf (a ++ b) = commandsOf a ++ commandsOf b := List.filterMap_append

theorem commandsOf_submission (c : ChainCmd) (cmd : List Byte) (ok : Bool) :
    commandsOf (.busCmd cmd :: if ok then [] else [.logSubmitFail c]) = [cmd] := by
  cases ok <;> rfl

/-- The command bytes of the chain or of the startup sequencer in some session. -/
def BlockCommand (cmd : List Byte) : Prop := (∃ c s, command c s = some cmd) ∨ ∃ q s, cmd = initCommand q s

/-- The trace of `t` is that of `s` with outputs appended, of which `cmd`, a command of the block's, is the one command. -/
def AddsCommand (cmd : List Byte) (s t : State) : Prop :=
  ∃ events, t.out = s.out ++ events ∧ commandsOf events = [cmd] ∧ BlockCommand cmd

/-- A chain submission from a session with no new command adds the one it submits. -/
theorem submitted_addsCommand {c : ChainCmd} {cmd : List Byte} {ok : Bool} {s u : State} {events : List OutEvent}
    (hcmd : command c u = some cmd) (hout : u.out = s.out ++ events) (hquiet : commandsOf events = []) :
    AddsCommand cmd s (submitted c cmd ok u) := by
  refine ⟨events ++ .busCmd cmd :: (if ok then [] else [.logSubmitFail c]), ?_, ?_, .inl ⟨c, u, hcmd⟩⟩
  · rw [submitted_out, hout, List.append_assoc]
  · rw [commandsOf_append, hquiet, commandsOf_submission, List.nil_append]

/-- So does a startup submission. -/
theorem issueInit_addsCommand {q : InitStep} {ok : Bool} {s u : State} {events : List OutEvent}
    (hout : u.out = s.out ++ events) (hquiet : commandsOf events = []) :
    AddsCommand (initCommand q u) s (issueInit q ok u) := by
  obtain ⟨more, hmore, hone⟩ : ∃ more, (issueInit q ok u).out = u.out ++ more ∧ commandsOf more = [initCommand q u] := by
    rcases issueInit_cases q ok u with ⟨-, h⟩ | ⟨-, reports, _, -, hreports, -, h⟩
    · exact ⟨[.busCmd (initCommand q u)], by rw [h], rfl⟩
    · exact ⟨.busCmd (initCommand q u) :: reports, by rw [h], congrArg _ hreports⟩
  refine ⟨events ++ more, ?_, ?_, .inr ⟨q, u, rfl⟩⟩
  · rw [hmore, hout, List.append_assoc]
  · rw [commandsOf_append, hquiet, hone, List.nil_append]

/-- Rules R100, R104, R180, R186: the sessions in which a stimulus other than a completion may submit. -/
def SubmitsAtOnce (s : State) : Prop := s.ctl.running = true ∧ s.busy = false ∨ s.ctl = .unprobed ∨ s.ctl = .off

/-- What an instruction appends to the trace: no command, or one of the block's, submitted at once or by a completion. -/
theorem Answer.commands {i : Instr} {s t : State} (h : Answer s i t) :
    (∃ events, t.out = s.out ++ events ∧ commandsOf events = [])
      ∨ ∃ cmd, AddsCommand cmd s t ∧ (SubmitsAtOnce s ∨ ∃ resp a b c, i = .busComplete resp a b c) := by
  have hnone : s.out = s.out ++ [] := (List.append_nil _).symm
  cases h with
  | bus _ _ | ignored | interruptKept _ | loadFault _ _ _ _ | rest _ _ _ _ => exact .inl ⟨[], hnone, rfl⟩
  | requestRejected _ | requestKept _ _ _ _ => exact .inl ⟨_, rfl, rfl⟩
  | interruptTaken hrunning hbusy => exact .inr ⟨_, submitted_addsCommand rfl hnone rfl, .inl (.inl ⟨hrunning, hbusy⟩)⟩
  | requestTaken _ hrunning hbusy => exact .inr ⟨_, submitted_addsCommand rfl rfl rfl, .inl (.inl ⟨hrunning, hbusy⟩)⟩
  | chain _ hsucc hcmd =>
    obtain ⟨events, hout, hquiet, -⟩ := hsucc.served.out
    exact .inr ⟨_, submitted_addsCommand hcmd hout hquiet, .inr ⟨_, _, _, _, rfl⟩⟩
  | initStep _ => exact .inr ⟨_, issueInit_addsCommand hnone rfl, .inr ⟨_, _, _, _, rfl⟩⟩
  | initResult _ _ hevents => exact .inl ⟨_, rfl, hevents⟩
  | probed hctl => exact .inr ⟨_, issueInit_addsCommand hnone rfl, .inl (.inr (.inl hctl))⟩
  | started hctl =>
    exact .inr ⟨_, issueInit_addsCommand (u := emit .transceiverEnable _) rfl rfl, .inl (.inr (.inr hctl))⟩
  | stopped _ =>
    cases hslot : s.outgoingFrame with
    | none => exact .inl ⟨[.transceiverDisable], by simp [tearDown, releaseSlot, hslot], rfl⟩
    | some f => exact .inl ⟨[.txReleased f, .transceiverDisable], by simp [tearDown, releaseSlot, hslot], rfl⟩

/-- The block's eight opcodes. -/
theorem opcode_of_blockCommand {cmd : List Byte} (h : BlockCommand cmd) :
    ∃ op rest, cmd = op :: rest ∧ op ∈ ([0x02, 0x03, 0x05, 0x40, 0x81, 0x90, 0x94, 0xC0] : List Byte) := by
  rcases h with ⟨c, s, hcmd⟩ | ⟨q, s, rfl⟩
  · cases c with
    | loadTransmitBuffer =>
      obtain ⟨f, -, rfl⟩ := Option.map_eq_some_iff.mp hcmd
      exact ⟨_, _, rfl, by decide⟩
    | readFlags | readRxBuf0 | readRxBuf1 | clearStatusFlags | clearErrorFlags | requestSend =>
      obtain rfl := Option.some.inj hcmd
      exact ⟨_, _, rfl, by decide⟩
  · cases q with
    | pReset | pReadId | sReset | sBitTiming | sIntEnable | sRxb0Ctrl | sRxb1Ctrl | sMode | sPollMode =>
      exact ⟨_, _, rfl, by decide⟩

theorem mem_commandsOf {cmd : List Byte} {events : List OutEvent} (h : OutEvent.busCmd cmd ∈ events) :
    cmd ∈ commandsOf events :=
  List.mem_filterMap.mpr ⟨_, h, rfl⟩

/-- A command in a longer trace was there before or is among the outputs appended. -/
theorem mem_out_append {cmd : List Byte} {s t : State} {events : List OutEvent} (hout : t.out = s.out ++ events)
    (h : OutEvent.busCmd cmd ∈ t.out) : OutEvent.busCmd cmd ∈ s.out ∨ cmd ∈ commandsOf events := by
  rw [hout, List.mem_append] at h
  exact h.imp_right mem_commandsOf

/-- Settles O8: what is new in the trace is a command of the chain or of the startup sequencer. -/
theorem onlyTheBlocksOpcodesAreEmitted : Obligations.OnlyTheBlocksOpcodesAreEmitted := by
  intro i s t h cmd hmem
  rcases (answer_of_exec h).commands with ⟨events, hout, hnone⟩ | ⟨added, ⟨events, hout, hone, hblock⟩, -⟩
  · exact (mem_out_append hout hmem).imp_right fun hnew => by simp [hnone] at hnew
  · refine (mem_out_append hout hmem).imp_right fun hnew => ?_
    obtain rfl : cmd = added := List.mem_singleton.mp (hone ▸ hnew)
    exact opcode_of_blockCommand hblock

theorem Inv.outstanding_of_submitsAtOnce {s : State} (hs : Inv s) (h : SubmitsAtOnce s) : s.outstanding = none := by
  apply hs.outstanding_eq_none
  rcases h with ⟨hrunning, hbusy⟩ | hctl | hctl
  · exact hs.not_awaiting_of_idle hbusy hrunning
  · rw [hctl]; rfl
  · rw [hctl]; rfl

/-- Settles O13: a stimulus that submits at once finds the block at rest, where the invariant has nothing outstanding. -/
theorem atMostOneCommandPerStep : Obligations.AtMostOneCommandPerStep := by
  intro i s t hs h
  rcases (answer_of_exec h).commands with ⟨events, hout, hnone⟩ | ⟨cmd, ⟨events, hout, hone, -⟩, hwhen⟩
  · exact ⟨events, hout, by simp [hnone], fun hsome => absurd hnone hsome⟩
  · exact ⟨events, hout, by simp [hone], fun _ => hwhen.imp_left hs.outstanding_of_submitsAtOnce⟩

/-! ### Refused submissions (R211) -/

/-- A chain submission from a busy session that leaves the chain Stalled was refused, and says so last. -/
theorem submitted_stalled {c d : ChainCmd} {cmd : List Byte} {ok : Bool} {s u : State} {events : List OutEvent}
    (hcmd : command d u = some cmd) (hbusy : u.busy = true) (hout : u.out = s.out ++ events)
    (hstalled : (submitted d cmd ok u).ctl = .stalled c) :
    (submitted d cmd ok u).outstanding = none ∧ (submitted d cmd ok u).busy = true
      ∧ ∃ events cmd', (submitted d cmd ok u).out = s.out ++ events ++ [.busCmd cmd', .logSubmitFail c]
        ∧ command c (submitted d cmd ok u) = some cmd' := by
  cases ok with
  | true => cases hstalled
  | false =>
    obtain rfl : d = c := Ctl.stalled.inj hstalled
    exact ⟨rfl, hbusy, events, cmd, congrArg (· ++ _) hout, (command_submitted ..).trans hcmd⟩

theorem issueInit_ctl (q : InitStep) (ok : Bool) (s : State) :
    (issueInit q ok s).ctl = .init q ∨ (issueInit q ok s).ctl = .probeFailed ∨ (issueInit q ok s).ctl = .off := by
  rcases issueInit_cases q ok s with ⟨-, h⟩ | ⟨-, _, c, hc, -, -, h⟩ <;> rw [h]
  · exact .inl rfl
  · exact .inr hc

/-- Rule R211: a state newly Stalled was left by a refused chain submission. -/
theorem Answer.stalled {i : Instr} {s t : State} {c : ChainCmd} (hs : Inv s) (h : Answer s i t) (ht : t.ctl = .stalled c)
    (hnew : s.ctl ≠ .stalled c) :
    t.outstanding = none ∧ t.busy = true
      ∧ ∃ events cmd, t.out = s.out ++ events ++ [.busCmd cmd, .logSubmitFail c] ∧ command c t = some cmd := by
  cases h with
  | bus _ _ | ignored | interruptKept _ | requestRejected _ | requestKept _ _ _ _ => exact absurd ht hnew
  | interruptTaken _ _ => exact submitted_stalled rfl rfl (List.append_nil _).symm ht
  | requestTaken _ _ _ => exact submitted_stalled rfl rfl rfl ht
  | chain hctl hsucc hcmd =>
    obtain ⟨events, hout, -, -⟩ := hsucc.served.out
    exact submitted_stalled hcmd (hsucc.served.busy.trans (hs.busy_of_wait hctl)) hout ht
  | loadFault _ _ _ _ | rest _ _ _ _ | stopped _ => cases ht
  | initStep _ | probed _ | started _ => rcases issueInit_ctl _ _ _ with hc | hc | hc <;> cases hc.symm.trans ht
  | initResult _ hc _ => rcases hc with rfl | rfl | rfl <;> cases ht

/-- The stimuli whose submission verdict is `fail`. -/
def SubmissionRefused (i : Instr) : Prop :=
  i = .notifyInterrupt false ∨ (∃ f, i = .requestTransmit f false) ∨ ∃ resp al tm, i = .busComplete resp false al tm

theorem submitted_ctl_of_refused {ok : Bool} (hok : ok = false) (c : ChainCmd) (cmd : List Byte) (s : State) :
    (submitted c cmd ok s).ctl = .stalled c := by
  rw [hok]
  rfl

/-- Rule R211: while Running, a refused stimulus stalls the chain anew or puts out no command. -/
theorem Answer.refused {i : Instr} {s t : State} (hs : Inv s) (hrunning : s.ctl.running = true) (hi : SubmissionRefused i)
    (h : Answer s i t) :
    (∃ c, t.ctl = .stalled c ∧ s.ctl ≠ .stalled c) ∨ ∃ events, t.out = s.out ++ events ∧ commandsOf events = [] := by
  have hnew {c : ChainCmd} (hbusy : s.busy = false) : s.ctl ≠ .stalled c := by
    intro hctl
    simp [hs.busy_ctl, hctl, Ctl.busyValue] at hbusy
  cases h with
  | bus _ _ | ignored | interruptKept _ | loadFault _ _ _ _ | rest _ _ _ _ => exact .inr ⟨[], (List.append_nil _).symm, rfl⟩
  | requestRejected _ | requestKept _ _ _ _ => exact .inr ⟨_, rfl, rfl⟩
  | interruptTaken _ hbusy =>
    exact .inl ⟨_, submitted_ctl_of_refused (by simpa [SubmissionRefused] using hi) .., hnew hbusy⟩
  | requestTaken _ _ hbusy =>
    exact .inl ⟨_, submitted_ctl_of_refused (by simpa [SubmissionRefused] using hi) .., hnew hbusy⟩
  | chain hctl _ _ =>
    exact .inl ⟨_, submitted_ctl_of_refused (by simpa [SubmissionRefused] using hi) .., by simp [hctl]⟩
  | initStep hctl | initResult hctl _ _ | probed hctl | started hctl => simp [hctl, Ctl.running] at hrunning
  | stopped _ => simp [SubmissionRefused] at hi

/-- Settles O36: of a Running block's answers to a refused stimulus those with a command are refused chain submissions, and only
such a submission leads into Stalled. -/
theorem refusalStallsTheChain : Obligations.RefusalStallsTheChain := by
  constructor
  · intro i s t events hs hrunning hi h hout hcommands
    refine ((answer_of_exec h).refused hs hrunning hi).resolve_right ?_
    rintro ⟨quiet, hout', hquiet⟩
    obtain rfl : quiet = events := List.append_cancel_left (hout'.symm.trans hout)
    exact hcommands hquiet
  · exact fun _ _ _ _ hs h ht hnew => (answer_of_exec h).stalled hs ht hnew

/-! ### What the host is told (R218) -/

theorem receiver_submission (c : ChainCmd) (cmd : List Byte) (ok : Bool) :
    ∀ e ∈ OutEvent.busCmd cmd :: (if ok then [] else [.logSubmitFail c]), e.receiver = .host → ∃ d, e = .logSubmitFail d := by
  cases ok <;> simp [OutEvent.receiver]

/-- Outputs for the other agents before a submission add nothing for the host. -/
theorem submitted_host {c : ChainCmd} {cmd : List Byte} {ok : Bool} {s u : State} {events : List OutEvent}
    (hout : u.out = s.out ++ events) (hothers : ∀ e ∈ events, e.receiver ≠ .host) :
    ∃ events, (submitted c cmd ok u).out = s.out ++ events
      ∧ ∀ e ∈ events, e.receiver = .host → ∃ d, e = .logSubmitFail d := by
  refine ⟨events ++ .busCmd cmd :: (if ok then [] else [.logSubmitFail c]), ?_, fun e he => ?_⟩
  · rw [submitted_out, hout, List.append_assoc]
  · rcases List.mem_append.mp he with he | he
    · exact fun hhost => absurd hhost (hothers e he)
    · exact receiver_submission c cmd ok e he

/-- Settles O37: while Running the startup sequencer, whose reports go to the host, takes no step. -/
theorem chainFailuresStayInTheTrace : Obligations.ChainFailuresStayInTheTrace := by
  intro i s t hrunning hi h
  cases answer_of_exec h with
  | bus _ _ | ignored | interruptKept _ | loadFault _ _ _ _ | rest _ _ _ _ => exact ⟨[], (List.append_nil _).symm, nofun⟩
  | requestRejected _ | requestKept _ _ _ _ => exact ⟨_, rfl, by simp [OutEvent.receiver]⟩
  | interruptTaken _ _ => exact submitted_host (List.append_nil _).symm nofun
  | requestTaken _ _ _ => exact submitted_host rfl (by simp [OutEvent.receiver])
  | chain _ hsucc _ =>
    obtain ⟨events, hout, -, hothers⟩ := hsucc.served.out
    exact submitted_host hout hothers
  | initStep hctl | initResult hctl _ _ | probed hctl | started hctl => simp [hctl, Ctl.running] at hrunning
  | stopped _ => exact absurd rfl hi

end Sys2Proof.Machine

/-! ## Who may change what (R25, R43, R144, R211, R220, R221) -/

namespace Sys2Proof.Machine

/-! ### Fields a startup submission leaves -/

section
variable (q : InitStep) (ok : Bool) (s : State)

@[simp] theorem issueInit_busy : (issueInit q ok s).busy = s.busy := congrArg (·.1) (issueInit_gate s q ok)

@[simp] theorem issueInit_interruptPending : (issueInit q ok s).interruptPending = s.interruptPending :=
  congrArg (·.2.1) (issueInit_gate s q ok)

@[simp] theorem issueInit_transmitPending : (issueInit q ok s).transmitPending = s.transmitPending :=
  congrArg (·.2.2) (issueInit_gate s q ok)

@[simp] theorem issueInit_outgoingFrame : (issueInit q ok s).outgoingFrame = s.outgoingFrame := by
  rcases issueInit_cases q ok s with ⟨-, h⟩ | ⟨-, _, _, -, -, -, h⟩ <;> rw [h]

@[simp] theorem issueInit_statusBits : (issueInit q ok s).statusBits = s.statusBits := by
  rcases issueInit_cases q ok s with ⟨-, h⟩ | ⟨-, _, _, -, -, -, h⟩ <;> rw [h]

@[simp] theorem issueInit_errorFlags : (issueInit q ok s).errorFlags = s.errorFlags := by
  rcases issueInit_cases q ok s with ⟨-, h⟩ | ⟨-, _, _, -, -, -, h⟩ <;> rw [h]

end

/-! ### The snapshot (R25) -/

/-- Settles O32: of the completions only that of ReadFlags takes a snapshot, and it takes both bytes. -/
theorem snapshotIsWrittenByReadFlagsOnly : Obligations.SnapshotIsWrittenByReadFlagsOnly := by
  intro i s t h
  cases answer_of_exec h with
  | bus _ _ | ignored | interruptKept _ | requestRejected _ | requestKept _ _ _ _ | initResult _ _ _ => exact .inl ⟨rfl, rfl⟩
  | interruptTaken _ _ | requestTaken _ _ _ => exact .inl ⟨submitted_statusBits .., submitted_errorFlags ..⟩
  | chain hctl hsucc _ =>
    rw [submitted_statusBits, submitted_errorFlags]
    rcases hsucc.served.snapshot with hkept | ⟨rfl, hread⟩
    · exact .inl hkept
    · exact .inr ⟨_, _, _, _, rfl, hctl, hread⟩
  | loadFault hctl _ _ _ | rest hctl _ _ _ => exact .inr ⟨_, _, _, _, rfl, hctl, rfl, rfl⟩
  | initStep _ | probed _ | started _ => exact .inl ⟨issueInit_statusBits .., issueInit_errorFlags ..⟩
  | stopped _ => cases hslot : s.outgoingFrame <;> simp [tearDown, releaseSlot, hslot]

/-! ### The gate flags and the slot (R21, R43) -/

/-- Settles O24: the answers by which flag or slot they write; a submission writes none. -/
theorem gateFlagWriters : Obligations.GateFlagWriters := by
  intro i s t h
  cases answer_of_exec h with
  | bus _ _ | ignored | requestRejected _ | initResult _ _ _ => exact ⟨absurd rfl, absurd rfl, absurd rfl, absurd rfl⟩
  | interruptKept _ => exact ⟨absurd rfl, fun _ => .inl ⟨_, rfl⟩, absurd rfl, absurd rfl⟩
  | interruptTaken _ _ =>
    exact ⟨fun _ => .inl ⟨_, rfl⟩, fun _ => .inl ⟨_, rfl⟩, absurd (submitted_transmitPending ..),
      absurd (submitted_outgoingFrame ..)⟩
  | requestKept _ _ _ _ => exact ⟨absurd rfl, absurd rfl, fun _ => .inl ⟨_, _, rfl⟩, fun _ => .inl ⟨_, _, rfl⟩⟩
  | requestTaken _ _ _ =>
    exact ⟨fun _ => .inr (.inl ⟨_, _, rfl⟩), absurd (submitted_interruptPending ..), fun _ => .inl ⟨_, _, rfl⟩,
      fun _ => .inl ⟨_, _, rfl⟩⟩
  | chain hctl hsucc _ =>
    have hserved := hsucc.served
    rw [submitted_busy, submitted_interruptPending, submitted_transmitPending, submitted_outgoingFrame]
    refine ⟨absurd hserved.busy, fun hne => ?_, fun hne => ?_, fun hne => ?_⟩
    · obtain rfl := hserved.interrupt.resolve_left hne
      exact .inr (.inr ⟨⟨_, _, _, _, rfl⟩, hctl⟩)
    · refine .inr (.inr ⟨⟨_, _, _, _, rfl⟩, ?_⟩)
      rcases hserved.transmit.resolve_left hne with rfl | rfl | rfl
      · exact .inl hctl
      · exact .inr (.inl hctl)
      · exact .inr (.inr hctl)
    · obtain ⟨rfl, -⟩ := hserved.slot.resolve_left hne
      exact .inr (.inr ⟨⟨_, _, _, _, rfl⟩, hctl⟩)
  | loadFault hctl _ _ _ =>
    exact ⟨absurd rfl, absurd rfl, fun _ => .inr (.inr ⟨⟨_, _, _, _, rfl⟩, .inl hctl⟩), absurd rfl⟩
  | rest hctl _ _ _ =>
    exact ⟨fun _ => .inr (.inr (.inr ⟨⟨_, _, _, _, rfl⟩, hctl⟩)), absurd rfl, absurd rfl, absurd rfl⟩
  | initStep _ | probed _ | started _ =>
    exact ⟨absurd (issueInit_busy ..), absurd (issueInit_interruptPending ..), absurd (issueInit_transmitPending ..),
      absurd (issueInit_outgoingFrame ..)⟩
  | stopped _ =>
    exact ⟨fun _ => .inr (.inr (.inl rfl)), fun _ => .inr (.inl rfl), fun _ => .inr (.inl rfl), fun _ => .inr (.inl rfl)⟩

/-- Settles O25: of the answers only Stop's and the rest clear `busy`. -/
theorem busyIsClearedOnlyAtRest : Obligations.BusyIsClearedOnlyAtRest := by
  intro i s t h hbusy hcleared
  have hkept {u : State} (hclear : u.busy = false) (hu : u.busy = s.busy) : False := by
    simp [hu, hbusy] at hclear
  cases answer_of_exec h with
  | bus _ _ | ignored | interruptKept _ | requestRejected _ | requestKept _ _ _ _ | initResult _ _ _ | loadFault _ _ _ _ =>
    exact (hkept hcleared rfl).elim
  | interruptTaken _ hidle | requestTaken _ _ hidle => simp [hbusy] at hidle
  | chain _ hsucc _ => exact (hkept hcleared ((submitted_busy ..).trans hsucc.served.busy)).elim
  | rest hctl hstatus htransmit hinterrupt => exact .inr ⟨hctl, rfl, hstatus, htransmit, hinterrupt⟩
  | initStep _ | probed _ | started _ => exact (hkept hcleared (issueInit_busy ..)).elim
  | stopped _ => exact .inl rfl

/-! ### A wait is ended by its completion only (R144) -/

/-- Settles O34: in `Wait(_)` the block is busy, so an event is only kept, and no other stimulus moves the FSM. -/
theorem noCancellation : Obligations.NoCancellation := by
  intro i s t c hs hctl h
  have hbusy := hs.busy_of_wait hctl
  cases answer_of_exec h with
  | bus _ _ | ignored | interruptKept _ | requestRejected _ | requestKept _ _ _ _ => exact .inl ⟨rfl, rfl⟩
  | interruptTaken _ hidle | requestTaken _ _ hidle => simp [hbusy] at hidle
  | chain _ _ _ | loadFault _ _ _ _ | rest _ _ _ _ | initStep _ | initResult _ _ _ => exact .inr ⟨_, _, _, _, rfl⟩
  | probed hother | started hother => cases hother.symm.trans hctl
  | stopped hawaiting => simp [hctl, Ctl.awaiting] at hawaiting

/-! ### Stalled and Fault (R211, R212, R220, R221) -/

/-- Settles O35: a stalled chain awaits no completion, and a busy block keeps its events. -/
theorem stalledIsLeftByStopOnly : Obligations.StalledIsLeftByStopOnly := by
  intro s c hctl hbusy
  have hrunning : s.ctl.running = true := by rw [hctl]; rfl
  refine ⟨fun i t h hi => ?_, exec_notifyInterrupt_of_busy hrunning hbusy, exec_probe_of_ne_unprobed (by simp [hctl]),
    exec_start_of_ne_off (by simp [hctl]), tearDown s, exec_stop_of_running hrunning (by rw [hctl]; rfl), rfl⟩
  cases answer_of_exec h with
  | bus _ _ | ignored | interruptKept _ | requestRejected _ | requestKept _ _ _ _ => exact ⟨hctl, hbusy⟩
  | interruptTaken _ hidle | requestTaken _ _ hidle => simp [hbusy] at hidle
  | chain hother _ _ | loadFault hother _ _ _ | rest hother _ _ _ | initStep hother | initResult hother _ _ | probed hother
  | started hother => cases hother.symm.trans hctl
  | stopped _ => exact absurd rfl hi

/-- Settles O38: no command is awaited in `Fault(_)`, the block is not Running, and each remaining answer needs one or the
other. -/
theorem faultIsSticky : Obligations.FaultIsSticky := by
  intro s code hctl
  have hrunning : s.ctl.running = false := by rw [hctl]; rfl
  have hawaiting : s.ctl.awaiting = false := by rw [hctl]; rfl
  have hstop := exec_stop_of_not_running hrunning hawaiting
  refine ⟨fun i t h => ?_, busComplete_ne_next_of_not_awaiting hawaiting, exec_notifyInterrupt_of_not_running hrunning,
    exec_probe_of_ne_unprobed (by simp [hctl]), exec_start_of_ne_off (by simp [hctl]), hstop,
    exec_requestTransmit_of_not_running hrunning⟩
  cases answer_of_exec h with
  | bus _ _ | ignored | interruptKept _ | requestRejected _ => exact hctl
  | interruptTaken hother _ | requestKept _ hother _ _ | requestTaken _ hother _ => cases hother.symm.trans hrunning
  | chain hother _ _ | loadFault hother _ _ _ | rest hother _ _ _ | initStep hother | initResult hother _ _ | probed hother
  | started hother => cases hother.symm.trans hctl
  | stopped _ => exact ctl_of_exec_eq hstop hctl h

theorem submitted_ctl_ne_fault {c : ChainCmd} {cmd : List Byte} {ok : Bool} {s : State} {code : FaultCode} :
    (submitted c cmd ok s).ctl ≠ .fault code := by
  cases ok <;> nofun

/-- Settles O39: the other answers are submissions or name their FSM state, and none of those is the fault. -/
theorem faultComesFromAnEmptyLoadOnly : Obligations.FaultComesFromAnEmptyLoadOnly := by
  intro i s t code h ht hnew
  cases answer_of_exec h with
  | bus _ _ | ignored | interruptKept _ | requestRejected _ | requestKept _ _ _ _ => exact absurd ht hnew
  | interruptTaken _ _ | requestTaken _ _ _ | chain _ _ _ => exact absurd ht submitted_ctl_ne_fault
  | loadFault hctl hstatus htransmit hslot => exact ⟨⟨_, _, _, _, rfl, hstatus⟩, hctl, htransmit, hslot, rfl, rfl⟩
  | rest _ _ _ _ | stopped _ => cases ht
  | initStep _ | probed _ | started _ => rcases issueInit_ctl _ _ _ with hc | hc | hc <;> cases hc.symm.trans ht
  | initResult _ hc _ => rcases hc with rfl | rfl | rfl <;> cases ht

end Sys2Proof.Machine

/-! ## Which stimuli have a step (R56, R141, R196) -/

namespace Sys2Proof.Machine

/-- Rule R141: no completion rule outside `Wait(_)` and `Init(_)`. -/
theorem complete_of_not_awaiting {s : State} (h : s.ctl.awaiting = false) (resp : List Byte) (ok al tm : Bool) :
    complete resp ok al tm s = none := by
  cases hctl : s.ctl with
  | wait _ | init _ => simp [hctl, Ctl.awaiting] at h
  | unprobed | probeFailed | off | idle | stalled _ | fault _ => simp [complete, hctl]

/-- Rules R56, R141: a completion that no command expects. -/
theorem exec_busComplete_not_expected {s : State} {resp : List Byte}
    (h : s.outstanding = none ∨ s.ctl.awaiting = false ∧ s.outstanding.map List.length = some resp.length) (ok al tm : Bool) :
    exec (.busComplete resp ok al tm) s = .fault .completionNotExpected := by
  rcases h with hnone | ⟨hawaiting, hlength⟩
  · simp [exec, execBusComplete, hnone]
  · obtain ⟨cmd, hcmd, hlen⟩ := Option.map_eq_some_iff.mp hlength
    simp [exec, execBusComplete, hcmd, hlen, complete_of_not_awaiting hawaiting]

/-- Rule R56: a completion of the wrong length. -/
theorem exec_busComplete_wrong_length {s : State} {cmd resp : List Byte} (hcmd : s.outstanding = some cmd)
    (hlength : resp.length ≠ cmd.length) (ok al tm : Bool) :
    exec (.busComplete resp ok al tm) s = .fault .completionWrongLength := by
  simp [exec, execBusComplete, hcmd, hlength]

/-- Rule R196. -/
theorem exec_stop_of_awaiting {s : State} (h : s.ctl.awaiting = true) : exec .stop s = .fault .stopWhileOutstanding := by
  cases hctl : s.ctl with
  | wait _ | init _ => simp [exec, execStop, hctl]
  | unprobed | probeFailed | off | idle | stalled _ | fault _ => simp [hctl, Ctl.awaiting] at h

/-- A legal instruction has a next state. -/
theorem exec_of_legal {i : Instr} {s : State} (h : Legal i s) : ∃ t, exec i s = .next t := by
  cases i with
  | busComplete resp ok al tm =>
    obtain ⟨hawaiting, hlength⟩ := h
    cases hctl : s.ctl with
    | wait c => exact ⟨_, exec_busComplete_chain ⟨hctl, hlength⟩ ok al tm⟩
    | init q => exact ⟨_, exec_busComplete_init ⟨hctl, hlength⟩ ok al tm⟩
    | unprobed | probeFailed | off | idle | stalled _ | fault _ => simp [hctl, Ctl.awaiting] at hawaiting
  | stop =>
    cases hrunning : s.ctl.running with
    | true => exact ⟨_, exec_stop_of_running hrunning h⟩
    | false => exact ⟨_, exec_stop_of_not_running hrunning h⟩
  | write _ _ | read _ _ | bitModify _ _ _ | loadTxBuffer0 _ _ | loadTxBuffer1 _ _ | loadTxBuffer2 _ _
  | requestToSend0 | requestToSend1 | requestToSend2 | readRxBuffer0 _ | readRxBuffer1 _ | reset
  | notifyInterrupt _ | requestTransmit _ _ | probe _ | start _ _ => exact ⟨_, rfl⟩

/-- Settles O15: only BusComplete and Stop can lack a step, and each lack has its fault. -/
theorem legalStimuliComplete : Obligations.LegalStimuliComplete :=
  ⟨fun _ _ h => exec_of_legal h, fun _ _ ok al tm h => exec_busComplete_not_expected h ok al tm,
    fun _ _ _ ok al tm hcmd hlength => exec_busComplete_wrong_length hcmd hlength ok al tm, fun _ h => exec_stop_of_awaiting h⟩

end Sys2Proof.Machine

/-! ## The snapshot is written before it is read (R37)

The operations that do not read the snapshot commute with replacing it; ReadFlags' completion overwrites it. -/

namespace Sys2Proof.Machine

section
variable (s : State) (sb ef : Byte)

/-! ### Operations that commute with replacing the snapshot -/

theorem submitted_withSnapshot (c : ChainCmd) (cmd : List Byte) (ok : Bool) :
    submitted c cmd ok (s.withSnapshot sb ef) = (submitted c cmd ok s).withSnapshot sb ef := by
  cases ok <;> rfl

theorem deliver_withSnapshot (al : Bool) (f : Frame) :
    deliver al f (s.withSnapshot sb ef) = (deliver al f s).withSnapshot sb ef := by
  cases al <;> rfl

theorem transmitOrReadFlags_withSnapshot (ok : Bool) :
    transmitOrReadFlags ok (s.withSnapshot sb ef) = (transmitOrReadFlags ok s).withSnapshot sb ef := by
  rcases transmitOrReadFlags_cases ok s with ⟨f, hpending, hslot, h⟩ | ⟨hnone, h⟩
  · rw [h, transmitOrReadFlags_of_transmit (s := s.withSnapshot sb ef) hpending hslot]
    exact submitted_withSnapshot { s with transmitPending := false } ..
  · rw [h, transmitOrReadFlags_of_none (s := s.withSnapshot sb ef) hnone]
    exact submitted_withSnapshot ..

theorem issueInit_withSnapshot (q : InitStep) (ok : Bool) :
    issueInit q ok (s.withSnapshot sb ef) = (issueInit q ok s).withSnapshot sb ef := by
  have hcommand : initCommand q (s.withSnapshot sb ef) = initCommand q s := initCommand_congr q rfl rfl
  cases hprobe : q.isProbe <;> cases ok <;> simp only [issueInit, initRefused, hprobe, hcommand] <;> rfl

theorem completeInit_withSnapshot (q : InitStep) (resp : List Byte) (ok tm : Bool) :
    completeInit q resp ok tm (s.withSnapshot sb ef) = (completeInit q resp ok tm s).withSnapshot sb ef := by
  cases q with
  | pReset | sReset | sBitTiming | sIntEnable | sRxb0Ctrl | sRxb1Ctrl | sMode => exact issueInit_withSnapshot ..
  | pReadId =>
    simp only [completeInit, completeReadId, withSnapshot_cfg, apply_ite (State.withSnapshot sb ef)]
    rfl
  | sPollMode =>
    simp only [completeInit, completePollMode, withSnapshot_cfg, withSnapshot_mode, issueInit_withSnapshot]
    split_ifs <;> rfl

theorem tearDown_withSnapshot : tearDown (s.withSnapshot sb ef) = (tearDown s).withSnapshot sb ef := by
  obtain ⟨_, _, _, slot, _, _, _, _, _, _, _, _, _, _, _⟩ := s
  cases slot <;> rfl

/-! ### FSM states that are about to read it -/

theorem submitted_readsSnapshot {c : ChainCmd} (hc : (Ctl.wait c).readsSnapshot = false) (cmd : List Byte) (ok : Bool) :
    (submitted c cmd ok s).ctl.readsSnapshot = false := by
  cases ok with
  | true => exact hc
  | false => rfl

theorem transmitOrReadFlags_readsSnapshot (ok : Bool) : (transmitOrReadFlags ok s).ctl.readsSnapshot = false := by
  rcases transmitOrReadFlags_cases ok s with ⟨_, -, -, h⟩ | ⟨-, h⟩ <;> rw [h]
  · exact submitted_readsSnapshot _ rfl ..
  · exact submitted_readsSnapshot _ rfl ..

theorem issueInit_readsSnapshot (q : InitStep) (ok : Bool) : (issueInit q ok s).ctl.readsSnapshot = false := by
  rcases issueInit_ctl q ok s with h | h | h <;> rw [h] <;> rfl

theorem completeInit_readsSnapshot (q : InitStep) (resp : List Byte) (ok tm : Bool) :
    (completeInit q resp ok tm s).ctl.readsSnapshot = false := by
  rcases completeInit_cases q resp ok tm s with ⟨q', h⟩ | ⟨c, _, hc, -, h⟩ <;> rw [h]
  · exact issueInit_readsSnapshot ..
  · rcases hc with rfl | rfl | rfl <;> rfl

end

/-! ### The two runs -/

/-- In the chain: ReadFlags' completion overwrites the snapshot, and the others that may run do not read it. -/
theorem completeChain_agree {c : ChainCmd} (hc : (Ctl.wait c).readsSnapshot = false) (resp : List Byte) (ok al : Bool)
    (s : State) (sb ef : Byte) :
    AgreeUpToSnapshot sb ef (.next (completeChain c resp ok al s))
      (.next (completeChain c resp ok al (s.withSnapshot sb ef))) := by
  cases c with
  | readFlags => exact .inl rfl
  | readRxBuf1 =>
    simp only [completeChain, completeReadRxBuf1, deliver_withSnapshot, transmitOrReadFlags_withSnapshot]
    exact .inr ⟨transmitOrReadFlags_readsSnapshot .., rfl⟩
  | loadTransmitBuffer =>
    simp only [completeChain, completeLoadTransmitBuffer, issue_requestSend, submitted_withSnapshot]
    exact .inr ⟨submitted_readsSnapshot _ rfl .., rfl⟩
  | requestSend =>
    simp only [completeChain, completeRequestSend, issue_readFlags, submitted_withSnapshot]
    exact .inr ⟨submitted_readsSnapshot _ rfl .., rfl⟩
  | readRxBuf0 | clearStatusFlags | clearErrorFlags => cases hc

section
variable {s : State} {sb ef : Byte}

theorem agree_of_next {i : Instr} {t : State} (h : exec i s = .next t)
    (h' : exec i (s.withSnapshot sb ef) = .next (t.withSnapshot sb ef)) (ht : t.ctl.readsSnapshot = false) :
    AgreeUpToSnapshot sb ef (exec i s) (exec i (s.withSnapshot sb ef)) := by
  rw [h, h']
  exact .inr ⟨ht, rfl⟩

theorem agree_of_fault {i : Instr} {r : Fault} (h : exec i s = .fault r) (h' : exec i (s.withSnapshot sb ef) = .fault r) :
    AgreeUpToSnapshot sb ef (exec i s) (exec i (s.withSnapshot sb ef)) := by
  rw [h, h']
  rfl

variable (hs : s.ctl.readsSnapshot = false)
include hs

theorem notifyInterrupt_agree (ok : Bool) :
    AgreeUpToSnapshot sb ef (exec (.notifyInterrupt ok) s) (exec (.notifyInterrupt ok) (s.withSnapshot sb ef)) := by
  cases hrunning : s.ctl.running with
  | false =>
    exact agree_of_next (exec_notifyInterrupt_of_not_running hrunning ok)
      (exec_notifyInterrupt_of_not_running (s := s.withSnapshot sb ef) hrunning ok) hs
  | true =>
    cases hbusy : s.busy with
    | true =>
      exact agree_of_next (exec_notifyInterrupt_of_busy hrunning hbusy ok)
        (exec_notifyInterrupt_of_busy (s := s.withSnapshot sb ef) hrunning hbusy ok) hs
    | false =>
      have hcommutes := submitted_withSnapshot { s with busy := true } sb ef .readFlags readFlagsBytes ok
      exact agree_of_next (exec_notifyInterrupt_of_idle hrunning hbusy ok)
        ((exec_notifyInterrupt_of_idle (s := s.withSnapshot sb ef) hrunning hbusy ok).trans (congrArg _ hcommutes))
        (submitted_readsSnapshot _ rfl ..)

theorem requestTransmit_agree (f : Frame) (ok : Bool) :
    AgreeUpToSnapshot sb ef (exec (.requestTransmit f ok) s) (exec (.requestTransmit f ok) (s.withSnapshot sb ef)) := by
  cases hf : f.wellFormed with
  | false => exact agree_of_next (exec_requestTransmit_of_illFormed hf ok _) (exec_requestTransmit_of_illFormed hf ok _) hs
  | true =>
    cases hrunning : s.ctl.running with
    | false =>
      exact agree_of_next (exec_requestTransmit_of_not_running hrunning f ok)
        (exec_requestTransmit_of_not_running (s := s.withSnapshot sb ef) hrunning f ok) hs
    | true =>
      cases hslot : s.outgoingFrame with
      | some g =>
        exact agree_of_next (exec_requestTransmit_of_slotFull hf hrunning hslot ok)
          (exec_requestTransmit_of_slotFull (s := s.withSnapshot sb ef) hf hrunning hslot ok) hs
      | none =>
        have haccepts := exec_requestTransmit_of_slotEmpty hf hrunning hslot ok
        have haccepts' := exec_requestTransmit_of_slotEmpty (s := s.withSnapshot sb ef) hf hrunning hslot ok
        cases hbusy : s.busy with
        | true =>
          rw [acceptRequest_of_busy hbusy] at haccepts
          rw [acceptRequest_of_busy (s := s.withSnapshot sb ef) hbusy] at haccepts'
          exact agree_of_next haccepts haccepts' hs
        | false =>
          rw [acceptRequest_of_idle hbusy] at haccepts
          rw [acceptRequest_of_idle (s := s.withSnapshot sb ef) hbusy] at haccepts'
          have hcommutes := submitted_withSnapshot
            { s with outgoingFrame := some f, busy := true, out := s.out ++ [.txReply .accepted, .queueStop] } sb ef
            .loadTransmitBuffer (encodeTx s.cfg.txStdRtrInDlc f) ok
          exact agree_of_next haccepts (haccepts'.trans (congrArg _ hcommutes)) (submitted_readsSnapshot _ rfl ..)

theorem busComplete_agree (resp : List Byte) (ok al tm : Bool) :
    AgreeUpToSnapshot sb ef (exec (.busComplete resp ok al tm) s)
      (exec (.busComplete resp ok al tm) (s.withSnapshot sb ef)) := by
  by_cases hlength : s.outstanding.map List.length = some resp.length
  · cases hctl : s.ctl with
    | wait c =>
      rw [exec_busComplete_chain ⟨hctl, hlength⟩, exec_busComplete_chain (s := s.withSnapshot sb ef) ⟨hctl, hlength⟩]
      exact completeChain_agree (hctl ▸ hs) resp ok al { s with outstanding := none } sb ef
    | init q =>
      have hcommutes := completeInit_withSnapshot { s with outstanding := none } sb ef q resp ok tm
      exact agree_of_next (exec_busComplete_init ⟨hctl, hlength⟩ ok al tm)
        ((exec_busComplete_init (s := s.withSnapshot sb ef) ⟨hctl, hlength⟩ ok al tm).trans (congrArg _ hcommutes))
        (completeInit_readsSnapshot ..)
    | unprobed | probeFailed | off | idle | stalled _ | fault _ =>
      have hawaiting : s.ctl.awaiting = false := by rw [hctl]; rfl
      exact agree_of_fault (exec_busComplete_not_expected (.inr ⟨hawaiting, hlength⟩) ok al tm)
        (exec_busComplete_not_expected (s := s.withSnapshot sb ef) (.inr ⟨hawaiting, hlength⟩) ok al tm)
  · cases hcmd : s.outstanding with
    | none =>
      exact agree_of_fault (exec_busComplete_not_expected (.inl hcmd) ok al tm)
        (exec_busComplete_not_expected (s := s.withSnapshot sb ef) (.inl hcmd) ok al tm)
    | some cmd =>
      have hwrong : resp.length ≠ cmd.length := fun heq => hlength (by rw [hcmd, heq]; rfl)
      exact agree_of_fault (exec_busComplete_wrong_length hcmd hwrong ok al tm)
        (exec_busComplete_wrong_length (s := s.withSnapshot sb ef) hcmd hwrong ok al tm)

theorem probe_agree (ok : Bool) :
    AgreeUpToSnapshot sb ef (exec (.probe ok) s) (exec (.probe ok) (s.withSnapshot sb ef)) := by
  by_cases hctl : s.ctl = .unprobed
  · have hruns {u : State} (hu : u.ctl = .unprobed) : exec (.probe ok) u = .next (issueInit .pReset ok u) :=
      congrArg _ (if_pos hu)
    have hcommutes := issueInit_withSnapshot s sb ef .pReset ok
    exact agree_of_next (hruns hctl) ((hruns (u := s.withSnapshot sb ef) hctl).trans (congrArg _ hcommutes))
      (issueInit_readsSnapshot ..)
  · exact agree_of_next (exec_probe_of_ne_unprobed hctl ok) (exec_probe_of_ne_unprobed (s := s.withSnapshot sb ef) hctl ok) hs

theorem start_agree (m : Mode) (ok : Bool) :
    AgreeUpToSnapshot sb ef (exec (.start m ok) s) (exec (.start m ok) (s.withSnapshot sb ef)) := by
  by_cases hctl : s.ctl = .off
  · have hruns {u : State} (hu : u.ctl = .off) :
        exec (.start m ok) u = .next (issueInit .sReset ok (emit .transceiverEnable { u with mode := m })) :=
      congrArg _ (if_pos hu)
    have hcommutes := issueInit_withSnapshot (emit .transceiverEnable { s with mode := m }) sb ef .sReset ok
    exact agree_of_next (hruns hctl) ((hruns (u := s.withSnapshot sb ef) hctl).trans (congrArg _ hcommutes))
      (issueInit_readsSnapshot ..)
  · exact agree_of_next (exec_start_of_ne_off hctl m ok) (exec_start_of_ne_off (s := s.withSnapshot sb ef) hctl m ok) hs

theorem stop_agree : AgreeUpToSnapshot sb ef (exec .stop s) (exec .stop (s.withSnapshot sb ef)) := by
  cases hawaiting : s.ctl.awaiting with
  | true => exact agree_of_fault (exec_stop_of_awaiting hawaiting) (exec_stop_of_awaiting (s := s.withSnapshot sb ef) hawaiting)
  | false =>
    cases hrunning : s.ctl.running with
    | true =>
      exact agree_of_next (exec_stop_of_running hrunning hawaiting)
        ((exec_stop_of_running (s := s.withSnapshot sb ef) hrunning hawaiting).trans
          (congrArg _ (tearDown_withSnapshot ..))) rfl
    | false =>
      exact agree_of_next (exec_stop_of_not_running hrunning hawaiting)
        (exec_stop_of_not_running (s := s.withSnapshot sb ef) hrunning hawaiting) hs

end

/-- Settles O33: a bus command does not see the session; each stimulus takes the same branch from both states, and ends in a
state about to read the snapshot only after ReadFlags' completion has overwritten it. -/
theorem snapshotIsWrittenBeforeItIsRead : Obligations.SnapshotIsWrittenBeforeItIsRead := by
  intro i s sb ef hs
  cases i with
  | write _ _ | read _ _ | bitModify _ _ _ | loadTxBuffer0 _ _ | loadTxBuffer1 _ _ | loadTxBuffer2 _ _
  | requestToSend0 | requestToSend1 | requestToSend2 | readRxBuffer0 _ | readRxBuffer1 _ | reset => exact .inr ⟨hs, rfl⟩
  | notifyInterrupt ok => exact notifyInterrupt_agree hs ok
  | requestTransmit f ok => exact requestTransmit_agree hs f ok
  | busComplete resp ok al tm => exact busComplete_agree hs resp ok al tm
  | probe ok => exact probe_agree hs ok
  | start m ok => exact start_agree hs m ok
  | stop => exact stop_agree hs

end Sys2Proof.Machine

/-! ## Frames and the codec (R32, R164 to R170) -/

namespace Sys2Proof.Machine

/-! ### Well-formed frames, by data index -/

theorem drop_eq_zero_iff {f : Frame} :
    (∀ b ∈ f.data.toList.drop f.len, b = 0) ↔ ∀ i : Fin 8, f.len ≤ i.val → f.data[i] = 0 := by
  constructor
  · intro h i hi
    exact h _ (List.mem_drop_iff_getElem.mpr ⟨i - f.len, by simp; omega, by simp [hi]⟩)
  · intro h b hb
    obtain ⟨k, hk, rfl⟩ := List.mem_drop_iff_getElem.mp hb
    rw [Vector.length_toList] at hk
    simpa using h ⟨f.len + k, by omega⟩ (Nat.le_add_right ..)

theorem data_eq_zero_iff {f : Frame} : (∀ b ∈ f.data.toList, b = 0) ↔ ∀ i : Fin 8, f.data[i] = 0 := by
  constructor
  · exact fun h i => h _ (by simp)
  · intro h b hb
    obtain ⟨k, hk, rfl⟩ := List.getElem_of_mem hb
    rw [Vector.length_toList] at hk
    simpa using h ⟨k, hk⟩

/-- Settles O21: the identifier's bound by format, and the data conditions by index. -/
theorem frameWellFormedMeaning : Obligations.FrameWellFormedMeaning := by
  intro f
  have hid : (f.id.toNat < if f.ext then 2 ^ 29 else 2 ^ 11)
      ↔ (f.ext = true → f.id.toNat < 2 ^ 29) ∧ (f.ext = false → f.id.toNat < 2 ^ 11) := by
    cases f.ext <;> simp
  rw [wellFormed_iff, hid, drop_eq_zero_iff, data_eq_zero_iff, and_assoc]

/-! ### Decoding (R164, R165) -/

theorem rxLength_eq (b5 : Byte) : rxLength b5 = min (b5.toNat % 16) 8 := by
  rw [rxLength, BitVec.toNat_and]
  exact congrArg (min · 8) (Nat.and_two_pow_sub_one_eq_mod b5.toNat 4)

theorem decodeRx_data (resp : List Byte) (i : Fin 8) : (decodeRx resp).data[i] = rxDataByte resp i := by
  match i with
  | 0 | 1 | 2 | 3 | 4 | 5 | 6 | 7 => rfl

theorem rxDataByte_eq (resp : List Byte) (i : Nat) :
    rxDataByte resp i = if (decodeRx resp).rtr = true ∨ (decodeRx resp).len ≤ i then 0 else respByte resp (6 + i) := by
  change (if (decodeRx resp).rtr = true then 0 else if i < (decodeRx resp).len then respByte resp (6 + i) else 0) = _
  by_cases hrtr : (decodeRx resp).rtr = true
  · rw [if_pos hrtr, if_pos (.inl hrtr)]
  · by_cases hlen : i < (decodeRx resp).len
    · rw [if_neg hrtr, if_pos hlen, if_neg (not_or.mpr ⟨hrtr, Nat.not_le.mpr hlen⟩)]
    · rw [if_neg hrtr, if_neg hlen, if_pos (.inr (Nat.not_lt.mp hlen))]

/-- Settles O41: the low four bits are the residue modulo 16; the vector's entries are the data bytes. -/
theorem decodedLengthAndData : Obligations.DecodedLengthAndData :=
  fun resp _ => ⟨rxLength_eq _, fun i => (decodeRx_data resp i).trans (rxDataByte_eq resp i)⟩

/-- Settles O42: the identifier has its formula's width, the length is clamped, and the other data bytes are zero. -/
theorem decodedFramesAreWellFormed : Obligations.DecodedFramesAreWellFormed := by
  intro resp
  refine (frameWellFormedMeaning _).mpr ⟨Nat.min_le_right .., fun hext => ?_, fun hstd => ?_, fun i hi => ?_, fun hrtr i => ?_⟩
  · rw [decodeRx_id_of_extended resp hext]
    exact rxExtendedId_lt ..
  · rw [decodeRx_id_of_standard resp hstd]
    exact rxStandardId_lt ..
  · rw [decodeRx_data, rxDataByte_eq, if_pos (.inr hi)]
  · rw [decodeRx_data, rxDataByte_eq, if_pos (.inl hrtr)]

/-! ### Encoding (R167 to R170), on naturals -/

theorem toNat_lowByte_ushiftRight (v : Word32) (k : Nat) : (lowByte (v >>> k)).toNat = v.toNat / 2 ^ k % 256 := by
  rw [lowByte, BitVec.toNat_setWidth, BitVec.toNat_ushiftRight, Nat.shiftRight_eq_div_pow]

theorem toNat_lowByte (v : Word32) : (lowByte v).toNat = v.toNat % 256 := BitVec.toNat_setWidth ..

/-- A byte is its bits 7 to 5, 4, 3, 2 and 1 to 0. -/
theorem toNat_eq_fields (b : Byte) :
    b.toNat = (b.extractLsb' 5 3).toNat * 32 + (b.getLsbD 4).toNat * 16 + (b.getLsbD 3).toNat * 8 + (b.getLsbD 2).toNat * 4
      + (b.extractLsb' 0 2).toNat := by
  revert b; decide

theorem toNat_extendedByte2 (id : Word32) :
    (extendedByte2 id).toNat = id.toNat / 2 ^ 18 % 8 * 32 + 8 + id.toNat / 2 ^ 16 % 4 := by
  have h4 : (extendedByte2 id).getLsbD 4 = false := by simp [extendedByte2, lowByte]
  have h3 : (extendedByte2 id).getLsbD 3 = true := rxExtended_extendedByte2 id
  have h2 : (extendedByte2 id).getLsbD 2 = false := by simp [extendedByte2, lowByte]
  rw [toNat_eq_fields, extendedByte2_high, extendedByte2_low, h4, h3, h2, BitVec.extractLsb'_toNat, BitVec.extractLsb'_toNat,
    Nat.shiftRight_eq_div_pow, Nat.shiftRight_eq_div_pow]
  rfl

theorem toNat_standardByte2 (id : Word32) (remote : Bool) :
    (standardByte2 id remote).toNat = id.toNat % 8 * 32 + if remote then 16 else 0 := by
  have h3 : (standardByte2 id remote).getLsbD 3 = false := rxExtended_standardByte2 id remote
  have h2 : (standardByte2 id remote).getLsbD 2 = false := by cases remote <;> simp [standardByte2]
  have h0 : (standardByte2 id remote).extractLsb' 0 2 = 0 := by
    ext i hi
    cases remote <;> interval_cases i <;> simp [standardByte2]
  rw [toNat_eq_fields, standardByte2_high, standardByte2_remote, h3, h2, h0, BitVec.extractLsb'_toNat, Nat.shiftRight_zero]
  cases remote <;> rfl

theorem toNat_lengthByte {len : Nat} (h : len ≤ 8) (remote : Bool) :
    (lengthByte len remote).toNat = len + if remote then 64 else 0 := by
  interval_cases len <;> cases remote <;> rfl

/-- Settles O43: the header's fields by format, each byte's value by its bit fields. -/
theorem encodedFrameBytes : Obligations.EncodedFrameBytes := by
  intro f inDlc hf
  have hlen := len_le_of_wellFormed hf
  refine ⟨_, _, _, _, _, rfl, ?_, fun hext => ?_, fun hstd => ?_⟩
  · simpa [encodeTx, Header.bytes] using by omega
  · rw [txHeader_of_extended inDlc hext]
    exact ⟨toNat_lowByte_ushiftRight .., toNat_extendedByte2 _, toNat_lowByte_ushiftRight .., toNat_lowByte _,
      toNat_lengthByte hlen _⟩
  · rw [txHeader_of_standard inDlc hstd]
    refine ⟨toNat_lowByte_ushiftRight .., (toNat_standardByte2 ..).trans ?_, rfl, rfl, (toNat_lengthByte hlen _).trans ?_⟩
    · cases f.rtr <;> cases inDlc <;> rfl
    · cases f.rtr <;> cases inDlc <;> rfl

end Sys2Proof.Machine

/-! ## The chip's side of the bus commands (R39, R60 to R63, R74 to R79) -/

namespace Sys2Proof.Machine

/-! ### The register bits a command writes (R61, R134) -/

/-- Rule R134, bit by bit: in the error-flag register a command writes the overflow bits only. -/
theorem softwareWrite_bit (cfg : Config) (c : Chip) (a v : Byte) (b : Fin 8) :
    ((c.softwareWrite cfg a v).reg a).getLsbD b
      = if a = 0x2D → b = cfg.rx0ovrBit ∨ b = cfg.rx1ovrBit then v.getLsbD b else (c.reg a).getLsbD b := by
  rw [Chip.reg_softwareWrite, if_pos rfl]
  by_cases ha : a = addrErrorFlag
  · have hbit : (ovrMask cfg).getLsbD b = true ↔ (a = 0x2D → b = cfg.rx0ovrBit ∨ b = cfg.rx1ovrBit) := by
      rw [ovrMask_bit, Bool.or_eq_true, decide_eq_true_eq, decide_eq_true_eq]
      exact ⟨fun h _ => h, fun h => h ha⟩
    rw [if_pos ha, Chip.merge_bit]
    exact if_congr hbit rfl rfl
  · rw [if_neg ha]
    exact (if_pos fun h => absurd h ha).symm

theorem softwareWrite_reg_other (cfg : Config) (c : Chip) {a b : Byte} (v : Byte) (h : b ≠ a) :
    (c.softwareWrite cfg a v).reg b = c.reg b := by
  rw [Chip.reg_softwareWrite, if_neg h]

/-- Rule R134: outside the error-flag register a command's write is the value. -/
theorem softwareWrite_reg_same (cfg : Config) (c : Chip) {a : Byte} (v : Byte) (h : a ≠ 0x2D) :
    (c.softwareWrite cfg a v).reg a = v := by
  rw [Chip.reg_softwareWrite, if_pos rfl]
  exact if_neg h

/-- A command's write leaves in a register what that register and the value say. -/
theorem softwareWrite_reg_congr (cfg : Config) {c c' : Chip} {a : Byte} (v : Byte) (h : c.reg a = c'.reg a) :
    (c.softwareWrite cfg a v).reg a = (c'.softwareWrite cfg a v).reg a := by
  rw [Chip.reg_softwareWrite, Chip.reg_softwareWrite, h]

/-- Settles O55: a bit is written when the mask has it and, in the error-flag register, software may write it. -/
theorem bitModifyChangesTheMaskedBits : Obligations.BitModifyChangesTheMaskedBits := by
  intro s addr mask data
  refine ⟨_, rfl, rfl, Chip.idleBytes_length _ _, Chip.softwareWrite_tx .., Chip.softwareWrite_rx ..,
    Chip.softwareWrite_sending .., fun b => ?_, fun a ha => softwareWrite_reg_other _ _ _ ha⟩
  refine (softwareWrite_bit s.cfg s.chip addr _ b).trans ?_
  rw [Chip.merge_bit]
  exact (ite_and ..).symm.trans (if_congr and_comm rfl rfl)

/-! ### WRITE (R60, R75) -/

section
variable (cfg : Config) (a : Byte)

theorem writeFrom_cons (c : Chip) {k : Nat} (d : Byte) (rest : List Byte) (h : a.toNat + k < 256) :
    c.writeFrom cfg a k (d :: rest)
      = (c.softwareWrite cfg (BitVec.ofNat 8 (a.toNat + k)) d).writeFrom cfg a (k + 1) rest := by
  have htarget : Chip.target a k = some (BitVec.ofNat 8 (a.toNat + k)) := if_pos h
  rw [Chip.writeFrom, htarget]

/-- The buffers and the transmissions are no registers, wherever a byte goes. -/
theorem writeFrom_buffers (data : List Byte) (c : Chip) (k : Nat) :
    (c.writeFrom cfg a k data).tx = c.tx ∧ (c.writeFrom cfg a k data).rx = c.rx
      ∧ (c.writeFrom cfg a k data).sending = c.sending := by
  induction data generalizing c k with
  | nil => exact ⟨rfl, rfl, rfl⟩
  | cons d rest ih =>
    rw [Chip.writeFrom]
    split
    · simpa only [Chip.softwareWrite_tx, Chip.softwareWrite_rx, Chip.softwareWrite_sending] using
        ih (c.softwareWrite cfg _ d) (k + 1)
    · exact ih c (k + 1)

theorem ofNat_ne_of_ne {m n : Nat} (hm : m < 256) (hn : n < 256) (h : m ≠ n) : BitVec.ofNat 8 m ≠ BitVec.ofNat 8 n := by
  intro heq
  have hnat := congrArg BitVec.toNat heq
  rw [BitVec.toNat_ofNat, BitVec.toNat_ofNat, Nat.mod_eq_of_lt hm, Nat.mod_eq_of_lt hn] at hnat
  exact h hnat

/-- Outside the addressed range no register changes. -/
theorem writeFrom_reg_other (data : List Byte) (c : Chip) (k : Nat) (hfit : a.toNat + k + data.length ≤ 256) {m : Nat}
    (hm : m < 256) (hout : m < a.toNat + k ∨ a.toNat + k + data.length ≤ m) :
    (c.writeFrom cfg a k data).reg (BitVec.ofNat 8 m) = c.reg (BitVec.ofNat 8 m) := by
  induction data generalizing c k with
  | nil => rfl
  | cons d rest ih =>
    rw [List.length_cons] at hfit hout
    rw [writeFrom_cons cfg a c d rest (by omega), ih _ _ (by omega) (by omega),
      softwareWrite_reg_other _ _ _ (ofNat_ne_of_ne hm (by omega) (by omega))]

/-- Inside it, a register is written once, by the byte that reaches it. -/
theorem writeFrom_reg_same (data : List Byte) (c : Chip) (k : Nat) (hfit : a.toNat + k + data.length ≤ 256) {j : Nat} {d : Byte}
    (hd : data[j]? = some d) :
    (c.writeFrom cfg a k data).reg (BitVec.ofNat 8 (a.toNat + k + j))
      = (c.softwareWrite cfg (BitVec.ofNat 8 (a.toNat + k + j)) d).reg (BitVec.ofNat 8 (a.toNat + k + j)) := by
  induction data generalizing c k j with
  | nil => simp at hd
  | cons d0 rest ih =>
    rw [List.length_cons] at hfit
    rw [writeFrom_cons cfg a c d0 rest (by omega)]
    cases j with
    | zero =>
      obtain rfl : d0 = d := by simpa using hd
      exact writeFrom_reg_other cfg a rest _ _ (by omega) (m := a.toNat + k) (by omega) (by omega)
    | succ j =>
      rw [List.getElem?_cons_succ] at hd
      have hj : j < rest.length := (List.getElem?_eq_some_iff.mp hd).1
      have hrest := ih (c.softwareWrite cfg (BitVec.ofNat 8 (a.toNat + k)) d0) (k + 1) (by omega) hd
      rw [show a.toNat + k + (j + 1) = a.toNat + (k + 1) + j by omega, hrest]
      exact softwareWrite_reg_congr _ _ (softwareWrite_reg_other _ _ _ (ofNat_ne_of_ne (by omega) (by omega) (by omega)))

end

/-- Settles O53: inside the address space the bytes reach distinct registers, so each register holds what its one write left. -/
theorem writeChangesTheRegisters : Obligations.WriteChangesTheRegisters := by
  intro s addr data
  obtain ⟨htx, hrx, hsending⟩ := writeFrom_buffers s.cfg addr data s.chip 0
  refine ⟨_, rfl, rfl, Chip.idleBytes_length _ _, htx, hrx, hsending, fun hfit => ⟨fun k d hd haddr => ?_,
    fun k d hd haddr b => ?_, fun a ha => ?_⟩⟩
  · have hk : k < data.length := (List.getElem?_eq_some_iff.mp hd).1
    exact (writeFrom_reg_same s.cfg addr data s.chip 0 hfit hd).trans
      (softwareWrite_reg_same _ _ _ (ofNat_ne_of_ne (n := 0x2D) (by omega) (by decide) haddr))
  · have hwritten := writeFrom_reg_same s.cfg addr data s.chip 0 hfit hd
    rw [Nat.add_zero, haddr] at hwritten
    refine (congrArg (·.getLsbD b) hwritten).trans ((softwareWrite_bit ..).trans ?_)
    exact if_congr ⟨fun h => h rfl, fun h _ => h⟩ rfl rfl
  · have hother := writeFrom_reg_other s.cfg addr data s.chip 0 hfit a.isLt ha
    rwa [BitVec.ofNat_toNat, BitVec.setWidth_eq] at hother

/-! ### READ (R60, R74) -/

/-- Settles O54: response byte `k + 2` is that of data byte `k`. -/
theorem readReturnsTheRegisters : Obligations.ReadReturnsTheRegisters := by
  intro s addr clock
  refine ⟨_, rfl, rfl, by simp [Chip.readResponse], fun k hk hfit => ?_⟩
  have htarget : Chip.target addr k = some (BitVec.ofNat 8 (addr.toNat + k)) := if_pos hfit
  simp [Chip.readResponse, hk, Chip.readByte, htarget]

/-! ### The transmit buffers (R63, R68, R77, R78) -/

/-- Settles O56: the three commands are one load, of their own buffer. -/
theorem loadTxBufferFillsTheBuffer : Obligations.LoadTxBufferFillsTheBuffer := by
  intro s h data n i hi
  have hexec : exec i s = .next (s.onChip fun c => (c.load n h data).respondIdle (6 + data.length)) := by
    rcases hi with ⟨rfl, rfl⟩ | ⟨rfl, rfl⟩ | ⟨rfl, rfl⟩ <;> rfl
  refine ⟨_, hexec, rfl, Chip.idleBytes_length _ _, fun m hm => Chip.load_tx_other _ _ _ hm, fun hjobs => ?_⟩
  have hloaded := Chip.load_tx_same h data (Chip.pending_eq_false hjobs)
  exact ⟨fun hshort => hloaded.trans (congrArg _ (Chip.loadedData_of_le _ hshort)), fun _ => ⟨_, hloaded⟩⟩

/-- Settles O57: the three commands are one request, for their own buffer. -/
theorem requestToSendStartsATransmission : Obligations.RequestToSendStartsATransmission := by
  intro s n i hi
  have hexec : exec i s = .next (s.onChip fun c => (c.request n).respondIdle 1) := by
    rcases hi with ⟨rfl, rfl⟩ | ⟨rfl, rfl⟩ | ⟨rfl, rfl⟩ <;> rfl
  exact ⟨_, hexec, Chip.idleBytes_length _ _, rfl⟩

/-! ### The flags of register 0x2C (R39, R62, R63) -/

theorem rxFlagMask_eq (cfg : Config) (n : Fin 2) : rxFlagMask cfg n = bitMask (if n = 0 then cfg.rx0ifBit else cfg.rx1ifBit) :=
  (apply_ite bitMask ..).symm

theorem txFlagMask_eq (cfg : Config) (n : Fin 3) :
    txFlagMask cfg n = bitMask (if n = 0 then cfg.tx0ifBit else if n = 1 then cfg.tx1ifBit else cfg.tx2ifBit) := by
  rw [apply_ite bitMask, apply_ite bitMask]
  rfl

/-- Clearing the bit of a flag, bit by bit. -/
theorem reg_clearBits_bit (c : Chip) (a : Byte) (f b : Fin 8) :
    ((c.clearBits a (bitMask f)).reg a).getLsbD b = ((c.reg a).getLsbD b && decide (b ≠ f)) := by
  rw [Chip.reg_clearBits_same, BitVec.getLsbD_and, BitVec.getLsbD_not, bitMask_bit, decide_eq_true b.isLt, Bool.true_and,
    decide_not]

/-- Settles O58: both commands return their buffer and clear its one flag bit. -/
theorem readRxBufferReturnsTheBuffer : Obligations.ReadRxBufferReturnsTheBuffer := by
  intro s clock n i hi
  have hexec : exec i s = .next (s.onChip fun c => (c.ackRx s.cfg n).respond (c.rxResponse n)) := by
    rcases hi with ⟨rfl, rfl⟩ | ⟨rfl, rfl⟩ <;> rfl
  refine ⟨_, hexec, rfl, ⟨_, rfl⟩, rfl, rfl, rfl, fun b => ?_, fun a ha => Chip.reg_clearBits_other _ _ ha⟩
  have hcleared := reg_clearBits_bit s.chip addrInterruptFlag (if n = 0 then s.cfg.rx0ifBit else s.cfg.rx1ifBit) b
  rwa [← rxFlagMask_eq] at hcleared

/-- Settles O59: each event is one operation of the chip's: a flag's bit set in 0x2C beside the buffer filled or the
transmission ended, or one register changed. -/
theorem chipEventsRaiseTheirFlags : Obligations.ChipEventsRaiseTheirFlags := by
  intro s later
  refine ⟨fun n => ?sent, fun n bytes => ?received, fun addr value => ?changed⟩
  case sent =>
    have hset := Chip.reg_setBits_bit { s.chip with sending := Chip.finish n s.chip.sending } addrInterruptFlag
      (if n = 0 then s.cfg.tx0ifBit else if n = 1 then s.cfg.tx1ifBit else s.cfg.tx2ifBit)
    rw [← txFlagMask_eq] at hset
    refine ⟨_, rfl, rfl, hset, fun a ha => Chip.reg_setBits_other _ _ ha, Chip.finish_of_none n _,
      fun before after bytes hrunning hbefore => ?_⟩
    exact (congrArg (Chip.finish n) hrunning).trans (Chip.finish_append n before after bytes hbefore)
  case received =>
    have hset := Chip.reg_setBits_bit { s.chip with rx := s.chip.rx.set n bytes } addrInterruptFlag
      (if n = 0 then s.cfg.rx0ifBit else s.cfg.rx1ifBit)
    rw [← rxFlagMask_eq] at hset
    refine ⟨_, rfl, rfl, Vector.getElem_set_self n.isLt, fun m hm => ?_, hset, fun a ha => Chip.reg_setBits_other _ _ ha⟩
    exact Vector.getElem_set_ne n.isLt m.isLt fun heq => hm (Fin.ext heq.symm)
  case changed => exact ⟨_, rfl, rfl, Chip.reg_setReg_same .., fun a ha => Chip.reg_setReg_other _ _ ha⟩

/-! ### RESET (R73, R241) -/

/-- Settles O60: the chip after its reset lists no register and runs no transmission. -/
theorem resetCommandLeavesTheBlock : Obligations.ResetCommandLeavesTheBlock :=
  fun _ => ⟨_, rfl, rfl, rfl, rfl, Chip.idleBytes_length _ _⟩

end Sys2Proof.Machine
